-- ==== Sys2Proof/Word.lean ====
section
/-! DEFINITION. The words the engine moves: register-port words, timestamps, samples, register indices and line levels.
`00_scope.md` R10 fixes every width. -/

namespace Sys2Proof

/-- A register-port word, `WORD` = 32 bits (R10, R34). -/
abbrev Word := BitVec 32

/-- A value of the timestamp counter, `TS_WIDTH` = 64 bits (R10, R84). -/
abbrev Stamp := BitVec 64

/-- The deserializer's accumulator, `SAMPLE_BITS` = 24 bits (R10, R17). -/
abbrev Sample := BitVec 24

/-- A register index, `REG_INDEX_WIDTH` = 4 bits: an index outside 0–15 cannot be formed (R10, R34). -/
abbrev RegIndex := BitVec 4

/-- A pulse count as the engine holds it, 5 bits (R13, R32). -/
abbrev PulseCount := BitVec 5

/-- The level of a line, or one sampled bit: `true` is 1. -/
abbrev Level := Bool

end Sys2Proof
end

