-- ==== Sys2Proof/Config.lean ====
section
/-! DEFINITION. What an implementation fixes (`00_scope.md` R10) and the free values.
The parameters are carried in State as one record that no step changes (log 6), so that a statement about every state
is a statement about every configuration. An `opaque` constant is a value the spec leaves OPEN: nothing can prove what it is. -/

namespace Sys2Proof

/-- The converter's output rate pin-strap; no rule reads it (R10, R79, D28). -/
inductive Rate
  | hz10
  | hz80
deriving DecidableEq, Repr, Inhabited

/-- What the platform answers to a pin primitive (R57, R58). -/
inductive Answer
  | ok
  | fault
deriving DecidableEq, Repr, Inhabited

/-- Clock phase durations in nanoseconds and the converter's bounds on them, in the order R10 asks.
They are held; no step reads them, since the model gives `hold` no effect (R59, R60, log 18). -/
structure PhaseTimes where
  tHighMin : Nat
  tHighMax : Nat
  tLowMin  : Nat
  tHigh    : Nat
  tLow     : Nat
  high_ok  : tHighMin ≤ tHigh ∧ tHigh ≤ tHighMax
  low_ok   : tLowMin ≤ tLow
deriving DecidableEq, Repr

/-- The implementation parameters of R10 that have no fixed value.
Ranges hold by type; the pin assignment may be ill-formed, and then the model refuses it (R111). -/
structure Params where
  /-- `WAIT_TIMEOUT`, in ticks, 0 to 2^32 − 1. -/
  waitTimeout  : Fin (2 ^ 32)
  /-- `GPIO_MAY_FAULT`. -/
  gpioMayFault : Bool
  /-- `CLOCK_PIN`. -/
  clockPin     : Nat
  /-- `DATA_PIN`. -/
  dataPin      : Nat
  /-- The pins the platform has (R111). -/
  platformPins : List Nat
  /-- `TICK_NS`, 1 to 1000; no step reads it (log 18). -/
  tickNs       : { n : Nat // 1 ≤ n ∧ n ≤ 1000 }
  /-- `T_HIGH`, `T_LOW` and their bounds. -/
  phases       : PhaseTimes
  /-- `RATE`. -/
  rate         : Rate
deriving DecidableEq, Repr

/-- The pin assignment is well-formed: the two pins differ and the platform has both (R111). -/
def Params.pinsOk (p : Params) : Bool :=
  p.clockPin != p.dataPin && p.platformPins.contains p.clockPin && p.platformPins.contains p.dataPin

/-! The OPEN parameters as free constants (log 6). -/

/-- `WAIT_TIMEOUT` of this hardware, OPEN. -/
opaque Config.waitTimeout : Fin (2 ^ 32)

/-- `TICK_NS` − 1 of this hardware, OPEN. -/
opaque Config.tickNsLessOne : Fin 1000

/-- `RATE` of this hardware, OPEN. -/
opaque Config.rate : Rate

/-- Five OPEN durations in ns: `T_HIGH_MIN`, `T_LOW_MIN`, and by how much `T_HIGH` exceeds its minimum, its maximum exceeds
`T_HIGH`, and `T_LOW` exceeds its minimum. Every five durations in the order R10 asks arise so. -/
opaque Config.phaseNs : Nat → Nat

/-- The phase durations of this hardware: OPEN, within their bounds (R60). -/
def Config.phases : PhaseTimes where
  tHighMin := Config.phaseNs 0
  tHighMax := Config.phaseNs 0 + Config.phaseNs 2 + Config.phaseNs 3
  tLowMin  := Config.phaseNs 1
  tHigh    := Config.phaseNs 0 + Config.phaseNs 2
  tLow     := Config.phaseNs 1 + Config.phaseNs 4
  high_ok  := ⟨Nat.le_add_right _ _, Nat.le_add_right _ _⟩
  low_ok   := Nat.le_add_right _ _

/-- The configuration State.reset carries.
`GPIO_MAY_FAULT` is `true` as R10 asks; the pin numbers are a DESIGN CHOICE (log 7); the rest is OPEN. -/
def Config.params : Params where
  waitTimeout  := Config.waitTimeout
  gpioMayFault := true
  clockPin     := 0
  dataPin      := 1
  platformPins := [0, 1]
  tickNs       := ⟨Config.tickNsLessOne.val + 1, Nat.le_add_left _ _, Config.tickNsLessOne.isLt⟩
  phases       := Config.phases
  rate         := Config.rate

/-! The free values: each is applied to `State.freeCount`, which every draw advances. -/

/-- The level the converter presents on DATA, any bit (R58, log 3). -/
opaque Config.freeLevel : Nat → Level

/-- The platform's answer to a pin primitive (R57, R58, log 4). -/
opaque Config.freeAnswer : Nat → Answer

/-- The ticks that pass before a timestamp read (R86, log 5). -/
opaque Config.freeTicks : Nat → Nat

/-- The timestamp counter after a reset, unspecified (R22, R112, log 10). -/
opaque Config.freeStamp : Nat → Stamp

end Sys2Proof
end

