-- ==== Sys2Proof/Machine/State.lean ====
section
/-! DEFINITION. The machine's state (`10_state.md` R13), the moves of its agents, the reasons a step can stop, and reset. -/

namespace Sys2Proof.Machine

/-- The sequencer's position, in the place of a program counter (R15). -/
inductive Phase
  | idle
  | wait
  | shift
  | trail
deriving DecidableEq, Repr

/-- The completion codes (R95). -/
inductive Code
  | ok
  | timeout
  | invalidMode
  | invalidArgument
  | busFault
deriving DecidableEq, Repr

/-- Power-on reset and engine reset (R112). -/
inductive ResetKind
  | por
  | er
deriving DecidableEq, Repr

/-- Pin direction (R30, R113). -/
inductive PinDir
  | input
  | output
deriving DecidableEq, Repr

/-- The events of the trace (R56, R85, R112). -/
inductive Event
  | clkSet (b : Level)
  | clkFault (b : Level)
  | sample (d : Level)
  | sampleFault
  | ts (t : Stamp)
  | reset (k : ResetKind)
deriving DecidableEq, Repr

/-- One atomic step of one agent (R6, R41): what the agenda lists. -/
inductive Move
  /-- Host: `RegRead(idx)` (R35). -/
  | regRead (idx : RegIndex)
  /-- Host: `RegWrite(idx, v)` (R36–R38). -/
  | regWrite (idx : RegIndex) (v : Word)
  /-- Host: one iteration of the loop `wait_idle` (R55, log 16). -/
  | waitIdle
  /-- Engine: the step of its phase (R65, R67, R70). -/
  | engine
  /-- Clock: ticks pass (R84). -/
  | clock (ticks : Nat)
  /-- From outside: reset (R112). -/
  | reset (k : ResetKind)
deriving DecidableEq, Repr

/-- The state. The first group is the table of R13, field for field; "Nothing else is engine state". -/
structure State where
  /-- `phase`. -/
  phase      : Phase
  /-- `cur_n`: the pulse count of the READ in flight (R16). -/
  curN       : PulseCount
  /-- `bit_count` (R16). -/
  bitCount   : Nat
  /-- `trail_count` (R16). -/
  trailCount : Nat
  /-- `shift`: the deserializer (R17). -/
  shift      : Sample
  /-- `t_cmd` (R21). -/
  tCmd       : Stamp
  /-- `t_ready` (R21). -/
  tReady     : Stamp
  /-- `t_conv` (R21). -/
  tConv      : Stamp
  /-- `RESULT` (R18). -/
  result     : Word
  /-- `RAW` (R19). -/
  raw        : Word
  /-- `WAIT_TIME` (R20, R88). -/
  waitTime   : Word
  /-- `CONV_TIME` (R20, R89). -/
  convTime   : Word
  /-- `TOTAL_TIME` (R20, R90). -/
  totalTime  : Word
  /-- `code` (R23). -/
  code       : Code
  /-- `valid` (R24). -/
  valid      : Bool
  /-- `overrun` (R25). -/
  overrun    : Bool
  /-- `desync` (R26). -/
  desync     : Bool
  /-- `latched`: `none` is Unknown (R27). -/
  latched    : Option PulseCount
  /-- `smode`: `none` is Unknown (R28). -/
  smode      : Option PulseCount
  /-- `clk_out` (R30). -/
  clkOut     : Level
  /-- `ts` (R22, R84). -/
  ts         : Stamp
  /-- `trace`, oldest event first (R56). -/
  trace      : List Event
  /-- Direction of CLK, set at reset (R113, log 21). -/
  clkDir     : PinDir
  /-- Direction of DATA, set at reset (R113, log 21). -/
  dataDir    : PinDir
  /-- The configuration; no step changes it (R7, R10, log 6). -/
  params     : Params
  /-- The MODEL's field: which agents act next (log 1). -/
  agenda     : List Move
  /-- The MODEL's field: the levels DATA will present (log 3). -/
  dataIn     : List Level
  /-- The MODEL's field: the platform's next answers (log 4). -/
  gpioIn     : List Answer
  /-- The MODEL's field: the ticks that pass before each next timestamp read (log 5). -/
  clockIn    : List Nat
  /-- The MODEL's field: the counter the free values are applied to. -/
  freeCount  : Nat
  /-- The MODEL's field: what the host has read, oldest first (log 15). -/
  hostReads  : List (RegIndex × Word)
deriving DecidableEq, Repr

/-- No engine step faults in the model's sense (R8): the one reason is a step that is not enabled. -/
inductive Fault
  /-- Raised by `step` when the agenda gives the Engine a move while `phase` is IDLE: "it is not enabled (the engine is
  IDLE and has nothing to do)" (R8). Safe: the model stops where there is no step to take (log 17). -/
  | engineNotEnabled
deriving DecidableEq, Repr

/-- Why a step has no meaning. -/
inductive Refusal
  /-- An instruction without a meaning yet; no arm of `exec` answers so. Safe. -/
  | notModelled (mnemonic : String)
  /-- Raised by `step` in every state whose pin assignment is ill-formed (R111, log 8). Safe: no run is admitted. -/
  | illFormedConfig
deriving DecidableEq, Repr

/-- The machine right after a power-on reset: R13's reset values, and the two events that reset itself emits (R112, R113, log 9). -/
def State.reset : State where
  phase      := .idle
  curN       := 0
  bitCount   := 0
  trailCount := 0
  shift      := 0
  tCmd       := 0
  tReady     := 0
  tConv      := 0
  result     := 0
  raw        := 0
  waitTime   := 0
  convTime   := 0
  totalTime  := 0
  code       := .ok
  valid      := false
  overrun    := false
  desync     := false
  latched    := none
  smode      := none
  clkOut     := false
  ts         := Config.freeStamp 0
  trace      := [.reset .por, .clkSet false]
  clkDir     := .output
  dataDir    := .input
  params     := Config.params
  agenda     := []
  dataIn     := []
  gpioIn     := []
  clockIn    := []
  freeCount  := 1
  hostReads  := []

end Sys2Proof.Machine
end

