-- ==== Sys2Proof/Machine/Flags.lean ====
section
/-! DEFINITION. The status fields and their encodings (`10_state.md` R15, R23, R32; `60_exceptions.md` R95). -/

namespace Sys2Proof.Machine

/-- STATUS.PHASE: IDLE 0, WAIT 1, SHIFT 2, TRAIL 3 (R15). -/
def Phase.bits : Phase → BitVec 3
  | .idle => 0
  | .wait => 1
  | .shift => 2
  | .trail => 3

/-- STATUS.CODE (R95). -/
def Code.bits : Code → BitVec 3
  | .ok => 0
  | .timeout => 1
  | .invalidMode => 2
  | .invalidArgument => 3
  | .busFault => 4

/-- A command is in flight: `phase` ≠ IDLE (R32 BUSY). -/
def State.busy (s : State) : Bool := decide (s.phase ≠ .idle)

/-- `enc`: Unknown is 0, a pulse count is itself (R32). -/
def encPulses (m : Option PulseCount) : BitVec 5 := m.getD 0

/-- STATUS, assembled on every read (R32). -/
def status (s : State) : Word :=
  (encPulses s.smode ++ encPulses s.latched ++ BitVec.ofBool s.desync ++ BitVec.ofBool s.overrun
    ++ BitVec.ofBool s.valid ++ s.code.bits ++ s.phase.bits ++ BitVec.ofBool s.busy).setWidth 32

end Sys2Proof.Machine
end

