-- ==== Sys2Proof/Syntax.lean ====
section
/-! DEFINITION. The commands (one constructor per row of the opcode table), their operands, and the assembler's
and the host's notation (`30_encoding.md` R48, R50, R53–R55). -/

namespace Sys2Proof

/-- The two channels (R50 CH). -/
inductive Channel
  | A
  | B
deriving DecidableEq, Repr

/-- The GAIN field of a mode code, the reserved value included (R50). -/
inductive GainField
  | g128
  | g64
  | g32
  | reserved
deriving DecidableEq, Repr

/-- The commands.
A pulse count is an unsigned number (R49); WellFormed bounds it by the 5 bits of ARG. -/
inductive Instr
  /-- READ N (R62). -/
  | read (n : Nat)
  /-- ENCODE of a mode code: CH, the reserved bits [3:2], GAIN (R50, R80). -/
  | encode (ch : Channel) (x : BitVec 2) (g : GainField)
  /-- DECODE N (R81). -/
  | decode (n : Nat)
deriving DecidableEq, Repr

/-- The gains an `ENCODE ch, gain` statement may name (R53). -/
inductive Gain
  | g128
  | g64
  | g32
deriving DecidableEq, Repr

/-- The assembler's statements (R53) and the three pseudo-instructions (R54). -/
inductive Asm
  | read (n : Nat)
  | encode (ch : Channel) (g : Gain)
  | encodeRaw (c : Nat)
  | decode (n : Nat)
  | word (v : Word)
  | readA128
  | readB32
  | readA64
deriving DecidableEq, Repr

/-- The names of the register map (R31); indices 7–15 have none. -/
inductive RegName
  | cmd
  | status
  | result
  | raw
  | waitTime
  | convTime
  | totalTime
deriving DecidableEq, Repr

/-- An index in a host statement: a number 0–15 or a name (R55). -/
inductive Idx
  | num (i : RegIndex)
  | name (r : RegName)
deriving DecidableEq, Repr

/-- The host's register operations (R55); its own control flow belongs to the host, `wait_idle`'s loop excepted. -/
inductive HostStmt
  /-- `wr IDX, v`, where `v` may be a command's mnemonic. -/
  | wr (idx : Idx) (v : Asm)
  /-- `rd IDX -> x`. -/
  | rd (idx : Idx)
  /-- `wait_idle`. -/
  | waitIdle
deriving DecidableEq, Repr

end Sys2Proof
end

