-- ==== Sys2Proof/WellFormed.lean ====
section
/-! DEFINITION. Which commands are well-formed: an operand must fit the 5 bits of ARG (`30_encoding.md` R49).
An operand that fits but is not a valid pulse count or mode is well-formed; it runs and completes with an error code. -/

namespace Sys2Proof

/-- The operand fits its field of the command word (R47, R49). -/
def Instr.wf : Instr → Bool
  | .read n => decide (n < 32)
  | .encode _ _ _ => true
  | .decode n => decide (n < 32)

/-- The statement assembles: a number outside 0..31 does not (R53). -/
def Asm.wf : Asm → Bool
  | .read n => decide (n < 32)
  | .encode _ _ => true
  | .encodeRaw c => decide (c < 32)
  | .decode n => decide (n < 32)
  | .word _ => true
  | .readA128 => true
  | .readB32 => true
  | .readA64 => true

end Sys2Proof
end

