-- ==== Sys2Proof/Decode.lean ====
section
/-! DEFINITION. Reading a command from its word (`30_encoding.md` R47–R52), the encoder written from the same tables,
and the assembler's words (R53, R54). -/

namespace Sys2Proof

/-- RSV, bits [31:8] (R47). -/
def rsvField (w : Word) : BitVec 24 := w.extractLsb' 8 24

/-- OP, bits [7:5] (R47). -/
def opField (w : Word) : BitVec 3 := w.extractLsb' 5 3

/-- ARG, bits [4:0] (R47). -/
def argField (w : Word) : BitVec 5 := w.extractLsb' 0 5

/-- The channel a CH bit names (R50). -/
def channelOfBit : Bool → Channel
  | false => .A
  | true => .B

/-- The gain a GAIN field names (R50). -/
def gainOfBits (b : BitVec 2) : GainField :=
  match b.toNat with
  | 0 => .g128
  | 1 => .g64
  | 2 => .g32
  | _ => .reserved

/-- Why a word is no command (R51, R52). -/
inductive DecodeError
  /-- RSV ≠ 0; checked first. -/
  | reservedBits
  /-- OP is 000 or 100–111. -/
  | reservedOpcode
deriving DecidableEq, Repr

/-- The ENCODE command with operand field `arg` (R50). -/
def encodeOperands (arg : BitVec 5) : Instr :=
  .encode (channelOfBit (arg.getLsbD 4)) (arg.extractLsb' 2 2) (gainOfBits (arg.extractLsb' 0 2))

/-- The command a word stands for, or why it is none (R51). -/
def decode (w : Word) : Except DecodeError Instr :=
  if rsvField w ≠ 0 then .error .reservedBits
  else
    match (opField w).toNat with
    | 1 => .ok (.read (argField w).toNat)
    | 2 => .ok (encodeOperands (argField w))
    | 3 => .ok (.decode (argField w).toNat)
    | _ => .error .reservedOpcode

/-- The command of an opcode-table word of `nbits` bits; every bit above them is 0.
The port is word-only, so no byte order enters (R34). -/
def decodeTableWord (nbits w : Nat) : Option Instr :=
  if w % 2 ^ nbits < 2 ^ 32 then (decode (BitVec.ofNat 32 (w % 2 ^ nbits))).toOption else none

/-! ## The encoder -/

/-- The CH bit of a channel (R50). -/
def Channel.bit : Channel → BitVec 1
  | .A => 0b0#1
  | .B => 0b1#1

/-- The GAIN field of a gain (R50). -/
def GainField.bits : GainField → BitVec 2
  | .g128 => 0b00#2
  | .g64 => 0b01#2
  | .g32 => 0b10#2
  | .reserved => 0b11#2

/-- The 5-bit mode code of {CH, reserved bits, GAIN} (R50). -/
def modeCode (ch : Channel) (x : BitVec 2) (g : GainField) : BitVec 5 :=
  ch.bit ++ x ++ g.bits

/-- OP of a command (R48). -/
def Instr.opcode : Instr → BitVec 3
  | .read _ => 0b001#3
  | .encode _ _ _ => 0b010#3
  | .decode _ => 0b011#3

/-- ARG of a command (R49, R50). -/
def Instr.arg : Instr → BitVec 5
  | .read n => BitVec.ofNat 5 n
  | .encode ch x g => modeCode ch x g
  | .decode n => BitVec.ofNat 5 n

/-- The word of a command: RSV = 0, OP, ARG (R47). -/
def encode (i : Instr) : Word := 0#24 ++ i.opcode ++ i.arg

/-! ## The assembler -/

/-- The GAIN number an assembler statement's gain stands for (R53). -/
def Gain.code : Gain → Word
  | .g128 => 0
  | .g64 => 1
  | .g32 => 2

/-- The word a statement assembles to (R53, R54); a number that does not assemble has none. -/
def Asm.assemble (a : Asm) : Option Word :=
  if a.wf then
    some (match a with
      | .read n => 0x20#32 ||| BitVec.ofNat 32 n
      | .encode ch g => 0x40#32 ||| (if ch = .B then 0x10#32 else 0#32) ||| g.code
      | .encodeRaw c => 0x40#32 ||| BitVec.ofNat 32 c
      | .decode n => 0x60#32 ||| BitVec.ofNat 32 n
      | .word v => v
      | .readA128 => 0x39#32
      | .readB32 => 0x3A#32
      | .readA64 => 0x3B#32)
  else none

/-- The index of a named register (R31). -/
def RegName.index : RegName → RegIndex
  | .cmd => 0
  | .status => 1
  | .result => 2
  | .raw => 3
  | .waitTime => 4
  | .convTime => 5
  | .totalTime => 6

/-- The index a host statement names (R55). -/
def Idx.index : Idx → RegIndex
  | .num i => i
  | .name r => r.index

end Sys2Proof
end

