-- ==== Sys2Proof/Machine/Operands.lean ====
section
/-! DEFINITION. Operand forms: the mode table and what ENCODE and DECODE read from it (`43_mode_selector.md` R78–R81,
`30_encoding.md` R49, R50). -/

namespace Sys2Proof.Machine

/-- A row of the mode table (R78). -/
structure ModeRow where
  channel : Channel
  gain    : GainField
  pulses  : Nat
deriving DecidableEq, Repr

/-- The mode table: exactly three rows (R78). The pulse count is the total of one read cycle (`90_conflicts.md` C1). -/
def modeTable : List ModeRow :=
  [⟨.A, .g128, 25⟩, ⟨.B, .g32, 26⟩, ⟨.A, .g64, 27⟩]

/-- N is a valid pulse count, one of 25, 26, 27 (R49). -/
def legalPulses (n : Nat) : Bool := modeTable.any fun r => r.pulses == n

/-- What ENCODE gives: the pulse count, or the code it fails with, malformed codes first (R80, R104). -/
def encodeOutcome (ch : Channel) (x : BitVec 2) (g : GainField) : Except Code Word :=
  if x ≠ 0 ∨ g = .reserved then .error .invalidArgument
  else
    match modeTable.find? fun r => decide (r.channel = ch) && decide (r.gain = g) with
    | some r => .ok (BitVec.ofNat 32 r.pulses)
    | none => .error .invalidMode

/-- What DECODE gives: the mode code, zero-extended, or INVALID_MODE (R81). -/
def decodeOutcome (n : Nat) : Except Code Word :=
  match modeTable.find? fun r => r.pulses == n with
  | some r => .ok ((modeCode r.channel 0 r.gain).setWidth 32)
  | none => .error .invalidMode

/-- `sext_32` of the accumulator: the RawSample (R18, R69). -/
def sampleResult (u : Sample) : Word := u.signExtend 32

/-- `zext_32` of the accumulator (R19). -/
def sampleRaw (u : Sample) : Word := u.setWidth 32

/-- A duration of the timing registers: `((a − b) mod 2^64)[31:0]` (R88, R89, R90). -/
def duration (a b : Stamp) : Word := (a - b).setWidth 32

/-- `shift[22:0] ++ d` (R67). -/
def shiftIn (u : Sample) (d : Level) : Sample := u.extractLsb' 0 23 ++ BitVec.ofBool d

end Sys2Proof.Machine
end

