-- ==== Sys2Proof/Machine/Ops.lean ====
section
/-! DEFINITION. The named operations every meaning is built from: the draws of the environment, the pin and timestamp
primitives (`41_bus_primitives.md`, `44_timing.md`), completion (`60_exceptions.md` R96), the register port's reads
(`20_memory.md` R35) and reset (`70_reset_and_hazards.md` R112, R113). -/

namespace Sys2Proof.Machine

/-- `emit(e)`: append to the trace (R12, R56). -/
def emit (e : Event) (s : State) : State := { s with trace := s.trace ++ [e] }

/-! ## Draws: the next input of an agent, or a free value where its list has ended -/

/-- The level DATA presents at the next sample: any bit (R58, log 3). -/
def nextLevel (s : State) : Level := s.dataIn.headD (Config.freeLevel s.freeCount)

/-- The converter's draw is spent. -/
def takeLevel (s : State) : State :=
  { s with dataIn := s.dataIn.tail, freeCount := s.freeCount + 1 }

/-- What the platform answers to the next pin primitive: `fault` only if `GPIO_MAY_FAULT` (R57, R58, log 4). -/
def nextAnswer (s : State) : Answer :=
  if s.params.gpioMayFault then s.gpioIn.headD (Config.freeAnswer s.freeCount) else .ok

/-- The platform's draw is spent. -/
def takeAnswer (s : State) : State :=
  { s with gpioIn := s.gpioIn.tail, freeCount := s.freeCount + 1 }

/-- The ticks that pass before the next timestamp read: a natural number, so that reads are monotone (R86, log 5). -/
def nextTicks (s : State) : Nat := s.clockIn.headD (Config.freeTicks s.freeCount)

/-- The Clock agent lets `ticks` pass; `ts` wraps modulo 2^64 (R84). -/
def clockAdvance (ticks : Nat) (s : State) : State := { s with ts := s.ts + BitVec.ofNat 64 ticks }

/-- The Clock agent's step: the next ticks pass (R84, R86). -/
def clockStep (s : State) : State :=
  { clockAdvance (nextTicks s) s with clockIn := s.clockIn.tail, freeCount := s.freeCount + 1 }

/-! ## Pin and timestamp primitives -/

/-- `TsRead()`: the current `ts`, recorded in the trace; it never faults (R85). -/
def tsRead (s : State) : Stamp × State :=
  ((clockStep s).ts, emit (.ts (clockStep s).ts) (clockStep s))

/-- The event a CLK write leaves (R56, R57). -/
def clkEvent (b : Level) : Answer → Event
  | .ok => .clkSet b
  | .fault => .clkFault b

/-- `PinWrite(CLK, b)`: `clk_out` records the level intended whatever the platform answers (R57). -/
def pinWrite (b : Level) (s : State) : Answer × State :=
  (nextAnswer s, emit (clkEvent b (nextAnswer s)) { takeAnswer s with clkOut := b })

/-- `PinRead(DATA)`: `none` is `fault`; the converter's draw follows the platform's answer (R58). -/
def pinRead (s : State) : Option Level × State :=
  match nextAnswer s with
  | .fault => (none, emit .sampleFault (takeAnswer s))
  | .ok =>
    (some (nextLevel (takeAnswer s)),
      emit (.sample (nextLevel (takeAnswer s))) (takeLevel (takeAnswer s)))

/-- What `Pulse(false)` does in the high phase: nothing (R59). -/
def noSample (s : State) : Option Unit × State := (some (), s)

/-- `Pulse`: CLK high, what the high phase does, CLK low; `none` is `fault`, and every fault path still drives CLK low (R59).
`Pulse(true)` is `pulse pinRead`, `Pulse(false)` is `pulse noSample`. `hold` has no effect (R59, log 18). -/
def pulse {α : Type} (high : State → Option α × State) (s : State) : Option α × State :=
  match pinWrite true s with
  | (.fault, s1) => (none, (pinWrite false s1).2)
  | (.ok, s1) =>
    match high s1 with
    | (none, s2) => (none, (pinWrite false s2).2)
    | (some d, s2) =>
      match pinWrite false s2 with
      | (.fault, s3) => (none, s3)
      | (.ok, s3) => (some d, s3)

/-! ## Completion: the only "raise" of the block (R12, R106) -/

/-- `complete(c)`: end the command in flight (R96). -/
def complete (c : Code) (s : State) : State :=
  { s with code := c, valid := true, phase := .idle }

/-- A bus fault after which the edges the converter counted are unknown: at acceptance, in SHIFT and in TRAIL (R100). -/
def busFaultDesync (s : State) : State :=
  complete .busFault { s with desync := true, latched := none }

/-- The end of a command that completes at once: RESULT on success, nothing but the code on failure (R80, R81, R96). -/
def completeWith (r : Except Code Word) (s : State) : State :=
  match r with
  | .ok v => complete .ok { s with result := v }
  | .error c => complete c s

/-! ## The register port's reads -/

/-- `RegRead(idx)`: the word returned; no state changes (R31, R35). -/
def regRead (idx : RegIndex) (s : State) : Word :=
  match idx.toNat with
  | 1 => status s
  | 2 => s.result
  | 3 => s.raw
  | 4 => s.waitTime
  | 5 => s.convTime
  | 6 => s.totalTime
  | _ => 0

/-- The host receives the word of a `RegRead` (R35, log 15). -/
def hostRead (idx : RegIndex) (s : State) : State :=
  { s with hostReads := s.hostReads ++ [(idx, regRead idx s)] }

/-! ## Reset -/

/-- DESYNC after a reset: cleared by a power-on reset; kept by an engine reset, and set where it cuts SHIFT or TRAIL short (R112). -/
def desyncAfterReset (k : ResetKind) (s : State) : Bool :=
  match k with
  | .por => false
  | .er => s.desync || decide (s.phase = .shift) || decide (s.phase = .trail)

/-- Every field of R13 takes its reset value; `ts` takes any value (R112, log 10). The other agents' fields stay (log 11). -/
def resetFields (k : ResetKind) (s : State) : State :=
  { s with
    phase := .idle, curN := 0, bitCount := 0, trailCount := 0, shift := 0
    tCmd := 0, tReady := 0, tConv := 0
    result := 0, raw := 0, waitTime := 0, convTime := 0, totalTime := 0
    code := .ok, valid := false, overrun := false, desync := desyncAfterReset k s
    latched := none, smode := none, clkOut := false
    ts := Config.freeStamp s.freeCount, freeCount := s.freeCount + 1
    trace := [] }

/-- `ResetPins()`: CLK an output, DATA an input, CLK driven low; the answer is not looked at (R113, log 12). -/
def resetPins (s : State) : State :=
  (pinWrite false { s with clkDir := .output, dataDir := .input }).2

/-- `Reset(kind)` (R112). -/
def doReset (k : ResetKind) (s : State) : State :=
  resetPins (emit (.reset k) (resetFields k s))

end Sys2Proof.Machine
end

