-- ==== Sys2Proof/Machine/ModeSelector.lean ====
section
/-! DEFINITION. ENCODE and DECODE: the pure mapping between modes and pulse counts (`43_mode_selector.md` R80–R82). -/

namespace Sys2Proof.Machine

/-- ENCODE c: the pulse count of a mode code (R80). -/
def execEncode (ch : Channel) (x : BitVec 2) (g : GainField) (s : State) : Host.Outcome State Fault Refusal :=
  .next (completeWith (encodeOutcome ch x g) s)

/-- DECODE N: the mode code of a pulse count (R81). -/
def execDecode (n : Nat) (s : State) : Host.Outcome State Fault Refusal :=
  .next (completeWith (decodeOutcome n) s)

end Sys2Proof.Machine
end

