-- ==== Sys2Proof/Machine/Read.lean ====
section
/-! DEFINITION. READ: validation and acceptance in the step of the CMD write, then the engine's steps of each phase
(`42_read_cycle.md`). -/

namespace Sys2Proof.Machine

/-- The fields acceptance clears and the count it takes (R64, first line). -/
def acceptFields (n : Nat) (s : State) : State :=
  { s with curN := BitVec.ofNat 5 n, bitCount := 0, trailCount := 0, shift := 0 }

/-- `Accept(N)`: `t_cmd`, WAIT, CLK low (R64). -/
def accept (n : Nat) (s : State) : State :=
  match tsRead (acceptFields n s) with
  | (t, s1) =>
    match pinWrite false { s1 with tCmd := t, phase := .wait } with
    | (.ok, s2) => s2
    | (.fault, s2) => busFaultDesync s2

/-- READ N in the step of the CMD write: validation, then acceptance (R62, R63). -/
def execRead (n : Nat) (s : State) : Host.Outcome State Fault Refusal :=
  .next (if legalPulses n then accept n s else complete .invalidMode s)

/-- One WAIT poll: ready wins over an expired deadline, a DATA fault over both (R65, R104). -/
def waitStep (s : State) : State :=
  match pinRead s with
  | (none, s1) => complete .busFault s1
  | (some d, s1) =>
    match tsRead s1 with
    | (t, s2) =>
      if d = false then { s2 with tReady := t, phase := .shift }
      else if s2.params.waitTimeout.val ≤ (t - s2.tCmd).toNat then complete .timeout s2
      else s2

/-- One data pulse, MSB first (R67). -/
def shiftStep (s : State) : State :=
  match pulse pinRead s with
  | (none, s1) => busFaultDesync s1
  | (some d, s1) =>
    if s1.bitCount + 1 = 24 then
      { s1 with shift := shiftIn s1.shift d, bitCount := s1.bitCount + 1, trailCount := 0, phase := .trail }
    else
      { s1 with shift := shiftIn s1.shift d, bitCount := s1.bitCount + 1 }

/-- `UpdateModes()`, on a successful READ only (R74). -/
def updateModes (s : State) : State :=
  { s with smode := s.latched, latched := if s.desync then none else some s.curN }

/-- The result and timing registers of a successful READ (R73). -/
def writeResults (tDone : Stamp) (s : State) : State :=
  { s with
    raw := sampleRaw s.shift
    result := sampleResult s.shift
    waitTime := duration s.tReady s.tCmd
    convTime := duration s.tConv s.tReady
    totalTime := duration tDone s.tCmd }

/-- `Finish()` (R73). -/
def finish (s : State) : State :=
  match tsRead s with
  | (tDone, s1) => complete .ok (updateModes (writeResults tDone s1))

/-- `t_conv <- TsRead()` (R70). -/
def takeConv (s : State) : State :=
  match tsRead s with
  | (t, s1) => { s1 with tConv := t }

/-- One trailing pulse; the last takes `t_conv` and finishes (R70). -/
def trailStep (s : State) : State :=
  match pulse noSample s with
  | (none, s1) => busFaultDesync s1
  | (some _, s1) =>
    if s1.trailCount + 1 = s1.curN.toNat - 24 then
      finish (takeConv { s1 with trailCount := s1.trailCount + 1 })
    else { s1 with trailCount := s1.trailCount + 1 }

/-- The engine's step of its phase; at IDLE it has nothing to do (R8, R15). -/
def engineStep (s : State) : State :=
  match s.phase with
  | .idle => s
  | .wait => waitStep s
  | .shift => shiftStep s
  | .trail => trailStep s

end Sys2Proof.Machine
end

