-- ==== Sys2Proof/Machine/Dispatch.lean ====
section
/-! DEFINITION. One arm per command (`30_encoding.md` R51). -/

namespace Sys2Proof.Machine

def exec (i : Instr) (s : State) : Host.Outcome State Fault Refusal :=
  match i with
  | .read n => Sys2Proof.Machine.execRead n s
  | .encode ch x g => Sys2Proof.Machine.execEncode ch x g s
  | .decode n => Sys2Proof.Machine.execDecode n s

end Sys2Proof.Machine
end

