-- ==== Sys2Proof/Machine/Port.lean ====
section
/-! DEFINITION. The register port's writes and the moves of the agents (`20_memory.md` R36–R38, `30_encoding.md` R51, R55,
`00_scope.md` R6). -/

namespace Sys2Proof.Machine

/-- `Dispatch(v)`: run the command, or complete INVALID_ARGUMENT where the word is none (R51, R52). -/
def dispatch (v : Word) (s : State) : Host.Outcome State Fault Refusal :=
  match decode v with
  | .ok i => exec i s
  | .error _ => .next (complete .invalidArgument s)

/-- `RegWrite(idx, v)`: only CMD does anything; while busy its word is dropped and sets OVERRUN (R36, R37, R38). -/
def regWrite (idx : RegIndex) (v : Word) (s : State) : Host.Outcome State Fault Refusal :=
  if idx ≠ 0 then .next s
  else if s.busy then .next { s with overrun := true }
  else dispatch v s

/-- One iteration of `wait_idle`: read STATUS; while BUSY, one engine step and then again (R55, log 16). -/
def waitIdleStep (s : State) : State :=
  if s.busy then { hostRead 1 s with agenda := .engine :: .waitIdle :: s.agenda } else hostRead 1 s

/-- The Host's move of a statement (R55); a word that does not assemble gives none (R53). -/
def hostMove : HostStmt → Option Move
  | .wr idx v => v.assemble.map (Move.regWrite idx.index)
  | .rd idx => some (.regRead idx.index)
  | .waitIdle => some .waitIdle

/-- One agent's move, already taken off the agenda (R6). -/
def perform (m : Move) (s : State) : Host.Outcome State Fault Refusal :=
  match m with
  | .regRead idx => .next (hostRead idx s)
  | .regWrite idx v => regWrite idx v s
  | .waitIdle => .next (waitIdleStep s)
  | .engine => if s.busy then .next (engineStep s) else .fault .engineNotEnabled
  | .clock ticks => .next (clockAdvance ticks s)
  | .reset k => .next (doReset k s)

/-- The move where the agenda lists none: the Engine while it is enabled, else the Clock (R6, R124, log 2). -/
def defaultMove (s : State) : State :=
  if s.busy then engineStep s else clockStep s

/-- The CMD word an opcode-table word of `nbits` bits stands for: the bits above them are 0. -/
def tableWord (nbits w : Nat) : Word := BitVec.ofNat 32 (w % 2 ^ nbits)

end Sys2Proof.Machine
end

