-- ==== Sys2Proof/Machine/Step.lean ====
section
/-! DEFINITION. One step of the machine: the agenda's next move (`00_scope.md` R6, R8), refused where the configuration is
ill-formed (`60_exceptions.md` R111). -/

namespace Sys2Proof.Machine

/-- One atomic step of one agent (R6, R8, R41). -/
def step (s : State) : Host.Outcome State Fault Refusal :=
  if s.params.pinsOk then
    match s.agenda with
    | [] => .next (defaultMove s)
    | m :: rest => perform m { s with agenda := rest }
  else .refused .illFormedConfig

/-- The host's next move writes the word to CMD, and the engine is IDLE to take it: commands are written, not fetched
(R33, R37, log 14). -/
def State.withFetchWord (s : State) (nbits w : Nat) : State :=
  { s with phase := .idle, agenda := .regWrite 0 (tableWord nbits w) :: s.agenda }

end Sys2Proof.Machine
end

