-- ==== Sys2Proof/Machine/Run.lean ====
section
/-! DEFINITION. A run of a host program: its statements as moves, when it is over, and its steps up to there
(`00_scope.md` R9, `30_encoding.md` R55). -/

namespace Sys2Proof.Machine

/-- The move is a register operation of the Host (R6, R55). -/
def Move.isHost : Move → Bool
  | .regRead _ => true
  | .regWrite _ _ => true
  | .waitIdle => true
  | .engine => false
  | .clock _ => false
  | .reset _ => false

/-- The run is over: the Host has no register operation left to perform, and the engine is IDLE (R9, log 26). -/
def State.runOver (s : State) : Bool := !s.agenda.any Move.isHost && !s.busy

/-- The moves of a host program, in program order; a program with a word that does not assemble has none (R53, R55). -/
def programMoves : List HostStmt → Option (List Move)
  | [] => some []
  | st :: rest =>
    match hostMove st, programMoves rest with
    | some m, some ms => some (m :: ms)
    | _, _ => none

/-- The steps of a run, ended where it is over (R9) or where a step stops; `none` where `fuel` steps do not end it.
DESIGN CHOICE (log 27): whether the run is over is asked before a step is tried, so a run that is over where it starts takes no
step and is not refused, even on an ill-formed pin assignment (R111). -/
def runProgram : Nat → State → Option (Host.Outcome State Fault Refusal)
  | 0, s => if s.runOver then some (.next s) else none
  | fuel + 1, s =>
    if s.runOver then some (.next s)
    else
      match step s with
      | .next t => runProgram fuel t
      | .fault r => some (.fault r)
      | .refused r => some (.refused r)

end Sys2Proof.Machine
end

