-- ==== Sys2Proof/Safety.lean ====
section
/-! DEFINITION. What the statements speak of: the invariant of `10_state.md` R29, whose turn it is, what the trace says
happened on the lines, and two states the host cannot tell apart. -/

namespace Sys2Proof.Machine

/-- The invariant of every reachable state: R29, with the ranges of R13, R16, the closed form's bound on a partial `shift` (R68),
CLK low between steps (R59) and the pin directions (R30). -/
structure Invariant (s : State) : Prop where
  wait_cleared    : s.phase = .wait → s.bitCount = 0 ∧ s.trailCount = 0 ∧ s.shift = 0
  shift_bits      : s.phase = .shift → s.bitCount < 24 ∧ s.trailCount = 0
  shift_partial   : s.phase = .shift → s.shift.toNat < 2 ^ s.bitCount
  trail_pulses    : s.phase = .trail → s.bitCount = 24 ∧ s.trailCount < s.curN.toNat - 24
  busy_legal      : s.phase ≠ .idle → legalPulses s.curN.toNat = true
  bits_range      : s.bitCount ≤ 24
  trail_range     : s.trailCount ≤ 3
  desync_unknown  : s.desync = true → s.latched = none
  latched_legal   : ∀ n, s.latched = some n → legalPulses n.toNat = true
  smode_legal     : ∀ n, s.smode = some n → legalPulses n.toNat = true
  raw_high        : s.raw.extractLsb' 24 8 = 0
  clk_low         : s.clkOut = false
  clk_output      : s.clkDir = .output
  data_input      : s.dataDir = .input

/-- The next step is the Engine's: a command is in flight, and the agenda gives the Engine the move or lists none (R6, log 2). -/
def EngineTurn (s : State) : Prop :=
  s.params.pinsOk = true ∧ s.phase ≠ .idle ∧ (s.agenda = [] ∨ s.agenda.head? = some .engine)

/-- The next step is a reset. -/
def ResetTurn (s : State) : Prop := ∃ k, s.agenda.head? = some (.reset k)

/-- The platform answers `ok` to the next `k` pin primitives, by its inputs or because it cannot fault. -/
def OkAnswers (k : Nat) (s : State) : Prop :=
  s.params.gpioMayFault = false ∨ List.replicate k Answer.ok <+: s.gpioIn

/-- The number bits sampled in this order stand for, most significant first (R68). -/
def msbFirst (bits : List Level) : Nat := bits.foldl (fun acc d => 2 * acc + d.toNat) 0

/-- The events on the two lines: the trace without its timestamps. -/
def lineEvents (tr : List Event) : List Event :=
  tr.filter fun e => match e with
    | .ts _ => false
    | _ => true

/-- Rising edges the platform accepted, from the level CLK has before the first event (R59; log 23). -/
def risingEdges : Level → List Event → Nat
  | _, [] => 0
  | l, .clkSet b :: es => (if !l && b then 1 else 0) + risingEdges b es
  | _, .clkFault b :: es => risingEdges b es
  | l, _ :: es => risingEdges l es

/-- One data pulse and one trailing pulse as the trace shows them (R59, R75). -/
def dataPulseEvents (d : Level) : List Event := [.clkSet true, .sample d, .clkSet false]

/-- One trailing pulse. -/
def trailPulseEvents : List Event := [.clkSet true, .clkSet false]

/-- The pulses a READ in SHIFT or TRAIL has still to make, if no fault ends it sooner (R77). -/
def pulsesLeft (s : State) : Nat := (24 - s.bitCount) + (s.curN.toNat - 24 - s.trailCount)

/-- `u` is `s` with its clock, and every timestamp a rule still reads, later by `δ`; the trace may differ (R22). -/
def TimeShifted (δ : Stamp) (s u : State) : Prop :=
  u = { s with ts := s.ts + δ, tCmd := u.tCmd, tReady := u.tReady, tConv := u.tConv, trace := u.trace } ∧
  (s.phase ≠ .idle → u.tCmd = s.tCmd + δ) ∧
  (s.phase = .shift ∨ s.phase = .trail → u.tReady = s.tReady + δ)

/-- Two outcomes related state by state, or the same stop. -/
def OutcomesAgree (R : State → State → Prop) (a b : Host.Outcome State Fault Refusal) : Prop :=
  match a, b with
  | .next t, .next v => R t v
  | .fault x, .fault y => x = y
  | .refused x, .refused y => x = y
  | _, _ => False

/-- `k` steps of the machine behind the host's interface, stopping at the first that does not go on. -/
def runSteps (k : Nat) (s : State) : Host.Outcome State Fault Refusal := Sys2Proof.core.run k s

/-- A step is safe where it neither faults nor is refused. -/
def StepSafe (s : State) : Prop := ∃ t, step s = .next t

end Sys2Proof.Machine
end

