-- ==== Sys2Proof/Certificates/Slice0/Obligations.lean ====
section
/-! DEFINITION. The statements for the provers. Each docstring names the rule of spec/ it formalises; where a clause rests on the
model's own choice, it names the log entry. -/

open Sys2Proof Sys2Proof.Machine

/-! ## Encoding -/

/-- R47–R50: the word of a well-formed command decodes to it, every operand at every value. -/
def Obligations.DecodeOfEncode : Prop :=
  ∀ i : Instr, i.wf = true → decode (encode i) = .ok i

/-- R47–R50: a word that decodes is the word of what it decodes to, and that is well-formed: each command has one word. -/
def Obligations.EncodeOfDecode : Prop :=
  ∀ (w : Word) (i : Instr), decode w = .ok i → i.wf = true ∧ encode i = w

/-- R51, R52: exactly the words with RSV ≠ 0 are rejected for it, whatever OP is; exactly those with RSV = 0 and
OP 000 or 100–111 are rejected for OP. -/
def Obligations.RejectedWords : Prop :=
  ∀ w : Word,
    (decode w = .error .reservedBits ↔ 256 ≤ w.toNat) ∧
    (decode w = .error .reservedOpcode ↔ w.toNat < 256 ∧ (w.toNat < 32 ∨ 128 ≤ w.toNat))

/-- Words written out from R47–R50 decode to the commands they stand for. -/
def Obligations.SpecWordsDecode : Prop :=
  decode 0x00000039#32 = .ok (.read 25) ∧ decode 0x0000003A#32 = .ok (.read 26) ∧
  decode 0x00000052#32 = .ok (.encode .B 0 .g32) ∧ decode 0x00000041#32 = .ok (.encode .A 0 .g64) ∧
  decode 0x0000005F#32 = .ok (.encode .B 0b11#2 .reserved) ∧ decode 0x0000007B#32 = .ok (.decode 27) ∧
  decode 0x00000139#32 = .error .reservedBits ∧ decode 0x00000099#32 = .error .reservedOpcode

/-- R53, R54: every statement with numbers in 0..31, each of the six `ENCODE ch, gain` among them, assembles, to the word of
the command it names; a number outside 0..31 does not assemble. -/
def Obligations.AssembledWordsDecode : Prop :=
  (∀ n, n < 32 → ∃ w, (Asm.read n).assemble = some w ∧ decode w = .ok (.read n)) ∧
  (∀ n, n < 32 → ∃ w, (Asm.decode n).assemble = some w ∧ decode w = .ok (.decode n)) ∧
  (∀ c, c < 32 → ∃ w, (Asm.encodeRaw c).assemble = some w ∧ decode w = .ok (encodeOperands (BitVec.ofNat 5 c))) ∧
  (∀ ch g, ∃ w, (Asm.encode ch g).assemble = some w ∧
    decode w = .ok (.encode ch 0 (match g with | .g128 => .g128 | .g64 => .g64 | .g32 => .g32))) ∧
  (∀ v, (Asm.word v).assemble = some v) ∧
  (∀ n, ((Asm.read n).assemble = none ↔ 32 ≤ n) ∧ ((Asm.decode n).assemble = none ↔ 32 ≤ n) ∧
    ((Asm.encodeRaw n).assemble = none ↔ 32 ≤ n)) ∧
  Asm.readA128.assemble = (Asm.read 25).assemble ∧ Asm.readB32.assemble = (Asm.read 26).assemble ∧
  Asm.readA64.assemble = (Asm.read 27).assemble

/-! ## The step and the register port -/

/-- R37, R51: a CMD write while IDLE runs the command its word decodes to, in the same step. -/
def Obligations.CommandStepRunsDecoded : Prop :=
  ∀ (s : State) (v : Word) (rest : List Move) (i : Instr),
    s.params.pinsOk = true → s.phase = .idle → s.agenda = .regWrite 0 v :: rest → decode v = .ok i →
    step s = exec i { s with agenda := rest }

/-- Log 14: a word placed by `withFetchWord` is the command the very next step runs. -/
def Obligations.FetchWordRuns : Prop :=
  ∀ (s : State) (w : Nat) (i : Instr),
    s.params.pinsOk = true → w < 2 ^ 32 → decode (BitVec.ofNat 32 w) = .ok i →
    step (s.withFetchWord 32 w) = exec i { s with phase := .idle }

/-- R52: a word with RSV ≠ 0 or a reserved OP completes INVALID_ARGUMENT and changes nothing but `code` and `valid`. -/
def Obligations.ReservedWordCompletesInvalidArgument : Prop :=
  ∀ (s : State) (v : Word) (rest : List Move),
    s.params.pinsOk = true → s.phase = .idle → s.agenda = .regWrite 0 v :: rest →
    (256 ≤ v.toNat ∨ v.toNat < 32 ∨ 128 ≤ v.toNat) →
    step s = .next { s with agenda := rest, code := .invalidArgument, valid := true }

/-- R38: a CMD write while a command is in flight is dropped, whatever its word; only OVERRUN is set. -/
def Obligations.WriteWhileBusyIsDropped : Prop :=
  ∀ (s : State) (v : Word) (rest : List Move),
    s.params.pinsOk = true → s.phase ≠ .idle → s.agenda = .regWrite 0 v :: rest →
    step s = .next { s with agenda := rest, overrun := true }

/-- R36: a write to any other index changes no state. -/
def Obligations.WriteToOtherIndexIgnored : Prop :=
  ∀ (s : State) (idx : RegIndex) (v : Word) (rest : List Move),
    s.params.pinsOk = true → idx ≠ 0 → s.agenda = .regWrite idx v :: rest →
    step s = .next { s with agenda := rest }

/-- R35: what each index reads as. A read changes nothing of the engine: the record of what the host has received is the
model's choice (log 15). Reads are idempotent, whatever reads and ticks of the clock come between. -/
def Obligations.RegisterReads : Prop :=
  ∀ s : State,
    (regRead 0 s = 0 ∧ regRead 1 s = status s ∧ regRead 2 s = s.result ∧ regRead 3 s = s.raw ∧
      regRead 4 s = s.waitTime ∧ regRead 5 s = s.convTime ∧ regRead 6 s = s.totalTime ∧
      ∀ idx : RegIndex, 7 ≤ idx.toNat → regRead idx s = 0) ∧
    (∀ (idx : RegIndex) (rest : List Move), s.params.pinsOk = true → s.agenda = .regRead idx :: rest →
      step s = .next { s with agenda := rest, hostReads := s.hostReads ++ [(idx, regRead idx s)] }) ∧
    ∀ idx idx' : RegIndex, regRead idx (hostRead idx' s) = regRead idx s ∧ regRead idx (clockStep s) = regRead idx s ∧
      ∀ k, regRead idx (clockAdvance k s) = regRead idx s

/-- R84: the Clock's own step adds its ticks to `ts`, modulo 2^64, and changes nothing else of the engine: a `clock` move of
the agenda, and the step of an IDLE machine whose agenda lists no move, which log 2 gives to the Clock. -/
def Obligations.ClockStepAdvancesTs : Prop :=
  ∀ s : State, s.params.pinsOk = true →
    (∀ (k : Nat) (rest : List Move), s.agenda = .clock k :: rest → ∃ ts : Stamp,
      ts.toNat = (s.ts.toNat + k) % 2 ^ 64 ∧ step s = .next { s with agenda := rest, ts := ts }) ∧
    (s.agenda = [] → s.phase = .idle → ∃ ts : Stamp,
      ts.toNat = (s.ts.toNat + nextTicks s) % 2 ^ 64 ∧
      step s = .next { s with ts := ts, clockIn := s.clockIn.tail, freeCount := s.freeCount + 1 })

/-- R55, R31: the host notation. `wr IDX, v` is `RegWrite` of the word `v` stands for, where it stands for one; `rd IDX` is
`RegRead`; an index is a number or a name, and each name is its row of the register map. That `wait_idle` is one move is the
model's choice (log 16). That a program is one move for each statement, listed in the order written, and that one that does not
assemble leaves the program without moves, is the model's reading (log 26). -/
def Obligations.HostNotation : Prop :=
  (∀ (idx : Idx) (v : Asm), hostMove (.wr idx v) = (match v.assemble with
    | some w => some (.regWrite idx.index w)
    | none => none)) ∧
  (∀ idx : Idx, hostMove (.rd idx) = some (.regRead idx.index)) ∧ hostMove .waitIdle = some .waitIdle ∧
  (∀ i : RegIndex, (Idx.num i).index = i) ∧ (∀ r : RegName, (Idx.name r).index = match r with
    | .cmd => 0 | .status => 1 | .result => 2 | .raw => 3 | .waitTime => 4 | .convTime => 5 | .totalTime => 6) ∧
  (∀ (ps : List HostStmt) (ms : List Move), programMoves ps = some ms ↔ ps.map hostMove = ms.map some) ∧
  ∀ ps : List HostStmt, programMoves ps = none ↔ ∃ st ∈ ps, hostMove st = none

/-- R32: every field of STATUS stands at its bits, Unknown reads 0, and bits [31:20] are 0. -/
def Obligations.StatusLayout : Prop :=
  ∀ s : State,
    ((status s).getLsbD 0 = true ↔ s.phase ≠ .idle) ∧
    (status s).extractLsb' 1 3 = (match s.phase with | .idle => 0#3 | .wait => 1#3 | .shift => 2#3 | .trail => 3#3) ∧
    (status s).extractLsb' 4 3 = (match s.code with
      | .ok => 0#3 | .timeout => 1#3 | .invalidMode => 2#3 | .invalidArgument => 3#3 | .busFault => 4#3) ∧
    (status s).getLsbD 7 = s.valid ∧ (status s).getLsbD 8 = s.overrun ∧ (status s).getLsbD 9 = s.desync ∧
    (status s).extractLsb' 10 5 = (match s.latched with | none => 0#5 | some n => n) ∧
    (status s).extractLsb' 15 5 = (match s.smode with | none => 0#5 | some n => n) ∧
    (status s).extractLsb' 20 12 = 0#12

/-- R55, log 16: one iteration of `wait_idle` reads STATUS; while BUSY = 1 it gives the Engine one step and polls again,
else it is over. It changes nothing of the engine. -/
def Obligations.WaitIdlePolls : Prop :=
  ∀ (s : State) (rest : List Move), s.params.pinsOk = true → s.agenda = .waitIdle :: rest →
    step s = .next { s with
      agenda := if (status s).getLsbD 0 then .engine :: .waitIdle :: rest else rest
      hostReads := s.hostReads ++ [(1, status s)] }

/-- R111, R8: a step is refused exactly where the pin assignment is ill-formed, whatever else the state holds, and never
as "not modelled". That "no run is admitted" refuses the Host's and the Clock's steps too is the model's reading (log 8). -/
def Obligations.RefusedExactlyWhenIllFormed : Prop :=
  ∀ s : State,
    (step s = .refused .illFormedConfig ↔
      (s.params.clockPin = s.params.dataPin ∨ s.params.clockPin ∉ s.params.platformPins ∨
        s.params.dataPin ∉ s.params.platformPins)) ∧
    ∀ m, step s ≠ .refused (.notModelled m)

/-- R8, log 17: a step faults exactly where the agenda gives the Engine a move it is not enabled to take. -/
def Obligations.FaultsExactlyWhenNotEnabled : Prop :=
  ∀ (s : State) (f : Fault),
    step s = .fault f ↔ s.params.pinsOk = true ∧ s.phase = .idle ∧ s.agenda.head? = some .engine

/-- R9, log 26: a run of a host program is over where no register operation of the host is left and STATUS.BUSY = 0;
`runProgram` is the machine's own steps up to the first state where it is over, or to the step that stops. That a run over where
it starts is no refusal on an ill-formed pin assignment either is the model's choice (log 27). -/
def Obligations.RunEndsWhenHostDoneAndIdle : Prop :=
  (∀ s : State, s.runOver = true ↔
    (∀ m ∈ s.agenda, m ≠ .waitIdle ∧ (∀ idx, m ≠ .regRead idx) ∧ ∀ idx v, m ≠ .regWrite idx v) ∧
    (status s).getLsbD 0 = false) ∧
  (∀ (k : Nat) (s : State) (o : Host.Outcome State Fault Refusal), runProgram k s = some o →
    ∃ j ≤ k, runSteps j s = o ∧ (∀ t, o = .next t → t.runOver = true) ∧
      ∀ i < j, ∃ u, runSteps i s = .next u ∧ u.runOver = false) ∧
  ∀ (k : Nat) (s : State), runProgram k s = none → ∀ i ≤ k, ∃ u, runSteps i s = .next u ∧ u.runOver = false

/-- R9, log 26: once a run is over it stays over, and unless a reset acts no step changes anything of the engine but `ts`. -/
def Obligations.OnlyTimePassesAfterRun : Prop :=
  ∀ s t : State, s.runOver = true → step s = .next t →
    t.runOver = true ∧
    (¬ ResetTurn s → t = { s with agenda := s.agenda.tail, ts := t.ts, clockIn := t.clockIn, freeCount := t.freeCount })

/-- R7, R30, log 6: no step of any agent changes the configuration; no step changes a pin's direction but a reset, and a
reset leaves CLK an output and DATA an input. -/
def Obligations.ConfigurationAndDirectionsFixed : Prop :=
  ∀ s t : State, step s = .next t →
    t.params = s.params ∧
    (¬ ResetTurn s → t.clkDir = s.clkDir ∧ t.dataDir = s.dataDir) ∧
    (ResetTurn s → t.clkDir = .output ∧ t.dataDir = .input)

/-! ## The primitives -/

/-- R57: `PinWrite(CLK, b)` by the platform's answer; nothing else changes. -/
def Obligations.PinWriteEffect : Prop :=
  ∀ (b : Level) (s : State),
    (nextAnswer s = .ok → pinWrite b s = (.ok, { s with
      clkOut := b, trace := s.trace ++ [.clkSet b], gpioIn := s.gpioIn.tail, freeCount := s.freeCount + 1 })) ∧
    (nextAnswer s = .fault → pinWrite b s = (.fault, { s with
      clkOut := b, trace := s.trace ++ [.clkFault b], gpioIn := s.gpioIn.tail, freeCount := s.freeCount + 1 })) ∧
    (s.params.gpioMayFault = false → nextAnswer s = .ok)

/-- R58: `PinRead(DATA)` by the platform's answer: a fault takes no draw of the converter; else the bit is any the
converter presents. Nothing of the engine but the trace changes. -/
def Obligations.PinReadEffect : Prop :=
  ∀ s : State,
    (nextAnswer s = .fault → pinRead s = (none, { s with
      trace := s.trace ++ [.sampleFault], gpioIn := s.gpioIn.tail, freeCount := s.freeCount + 1 })) ∧
    (nextAnswer s = .ok → ∃ d, pinRead s = (some d, { s with
      trace := s.trace ++ [.sample d], gpioIn := s.gpioIn.tail, dataIn := s.dataIn.tail, freeCount := s.freeCount + 2 }) ∧
      ∀ b bs, s.dataIn = b :: bs → d = b) ∧
    (s.params.gpioMayFault = false → nextAnswer s = .ok)

/-- R59: what `Pulse(true)` and `Pulse(false)` return and leave on the lines, for every answer of the platform; CLK ends low. -/
def Obligations.PulseEffect : Prop :=
  ∀ (s : State) (a b c : Answer) (d : Level) (as : List Answer) (ds : List Level),
    s.params.gpioMayFault = true → s.gpioIn = a :: b :: c :: as → s.dataIn = d :: ds →
    ((pulse pinRead s).1, (pulse pinRead s).2.trace) =
      (match a, b, c with
        | .fault, r, _ => (none, s.trace ++ [.clkFault true, clkEvent false r])
        | .ok, .fault, r => (none, s.trace ++ [.clkSet true, .sampleFault, clkEvent false r])
        | .ok, .ok, .fault => (none, s.trace ++ [.clkSet true, .sample d, .clkFault false])
        | .ok, .ok, .ok => (some d, s.trace ++ [.clkSet true, .sample d, .clkSet false])) ∧
    ((pulse noSample s).1, (pulse noSample s).2.trace) =
      (match a, b with
        | .fault, r => (none, s.trace ++ [.clkFault true, clkEvent false r])
        | .ok, .fault => (none, s.trace ++ [.clkSet true, .clkFault false])
        | .ok, .ok => (some (), s.trace ++ [.clkSet true, .clkSet false])) ∧
    (pulse pinRead s).2.clkOut = false ∧ (pulse noSample s).2.clkOut = false

/-- R85: `TsRead()` returns the `ts` of the moment and records it; R86: after any two reads with ticks passing between,
the difference is the true number of ticks modulo 2^64. -/
def Obligations.TimestampReads : Prop :=
  ∀ (s : State) (j k m : Nat) (ks : List Nat), s.clockIn = j :: k :: ks →
    (tsRead s).1 = (tsRead s).2.ts ∧ (tsRead s).2.trace = s.trace ++ [.ts (tsRead s).1] ∧
    ((tsRead (clockAdvance m (tsRead s).2)).1 - (tsRead s).1).toNat = (m + k) % 2 ^ 64

/-! ## READ -/

/-- R63: READ with a pulse count that is not 25, 26 or 27 completes INVALID_MODE: no pin, no timestamp, nothing else changes. -/
def Obligations.ReadInvalidMode : Prop :=
  ∀ (n : Nat) (s : State), s.phase = .idle → ¬ (n = 25 ∨ n = 26 ∨ n = 27) →
    exec (.read n) s = .next { s with code := .invalidMode, valid := true }

/-- R64: READ 25, 26, 27 is accepted: the counters cleared, `t_cmd` taken, WAIT entered, CLK driven low. -/
def Obligations.ReadAccepted : Prop :=
  ∀ (n : Nat) (s : State), n = 25 ∨ n = 26 ∨ n = 27 → nextAnswer (clockStep s) = .ok →
    exec (.read n) s = .next { s with
      curN := BitVec.ofNat 5 n, bitCount := 0, trailCount := 0, shift := 0
      tCmd := s.ts + BitVec.ofNat 64 (nextTicks s), ts := s.ts + BitVec.ofNat 64 (nextTicks s)
      phase := .wait, clkOut := false
      trace := s.trace ++ [.ts (s.ts + BitVec.ofNat 64 (nextTicks s)), .clkSet false]
      gpioIn := s.gpioIn.tail, clockIn := s.clockIn.tail, freeCount := s.freeCount + 2 }

/-- R64, R100: where the platform refuses acceptance's CLK write, READ completes BUS_FAULT, with DESYNC set and `latched` Unknown. -/
def Obligations.ReadAcceptanceBusFault : Prop :=
  ∀ (n : Nat) (s : State), n = 25 ∨ n = 26 ∨ n = 27 → nextAnswer (clockStep s) = .fault →
    exec (.read n) s = .next { s with
      curN := BitVec.ofNat 5 n, bitCount := 0, trailCount := 0, shift := 0
      tCmd := s.ts + BitVec.ofNat 64 (nextTicks s), ts := s.ts + BitVec.ofNat 64 (nextTicks s)
      phase := .idle, code := .busFault, valid := true, desync := true, latched := none, clkOut := false
      trace := s.trace ++ [.ts (s.ts + BitVec.ofNat 64 (nextTicks s)), .clkFault false]
      gpioIn := s.gpioIn.tail, clockIn := s.clockIn.tail, freeCount := s.freeCount + 2 }

/-- R65: one WAIT poll. A refused sample completes BUS_FAULT and reads no timestamp; a low sample is ready, even past the
deadline; a high sample at or past `WAIT_TIMEOUT` completes TIMEOUT; else WAIT goes on. No CLK edge, DESYNC unchanged. -/
def Obligations.WaitPoll : Prop :=
  ∀ s : State, EngineTurn s → s.phase = .wait →
    (nextAnswer s = .fault → step s = .next { s with
      agenda := s.agenda.tail, phase := .idle, code := .busFault, valid := true
      trace := s.trace ++ [.sampleFault], gpioIn := s.gpioIn.tail, freeCount := s.freeCount + 1 }) ∧
    (nextAnswer s = .ok → ∃ (d : Level) (k : Nat) (u : State),
      d = nextLevel (takeAnswer s) ∧ k = nextTicks (takeLevel (takeAnswer s)) ∧
      u = { s with
        agenda := s.agenda.tail, ts := s.ts + BitVec.ofNat 64 k
        trace := s.trace ++ [.sample d, .ts (s.ts + BitVec.ofNat 64 k)]
        gpioIn := s.gpioIn.tail, dataIn := s.dataIn.tail, clockIn := s.clockIn.tail, freeCount := s.freeCount + 3 } ∧
      (d = false → step s = .next { u with tReady := u.ts, phase := .shift }) ∧
      (d = true → s.params.waitTimeout.val ≤ (u.ts - s.tCmd).toNat →
        step s = .next { u with code := .timeout, valid := true, phase := .idle }) ∧
      (d = true → (u.ts - s.tCmd).toNat < s.params.waitTimeout.val → step s = .next u))

/-- R67: one data pulse that the platform does not refuse shifts the sampled bit in at the low end; the 24th enters TRAIL. -/
def Obligations.ShiftPulse : Prop :=
  ∀ s : State, EngineTurn s → s.phase = .shift →
    nextAnswer s = .ok → nextAnswer (takeAnswer s) = .ok → nextAnswer (takeLevel (takeAnswer (takeAnswer s))) = .ok →
    ∃ (d : Level) (u : State),
      d = nextLevel (takeAnswer (takeAnswer s)) ∧
      u = { s with
        agenda := s.agenda.tail, bitCount := s.bitCount + 1, clkOut := false
        trace := s.trace ++ [.clkSet true, .sample d, .clkSet false]
        gpioIn := s.gpioIn.drop 3, dataIn := s.dataIn.tail, freeCount := s.freeCount + 4
        shift := BitVec.ofNat 24 (2 * s.shift.toNat + d.toNat) } ∧
      (s.bitCount + 1 = 24 → step s = .next { u with trailCount := 0, phase := .trail }) ∧
      (s.bitCount + 1 ≠ 24 → step s = .next u)

/-- R70, R73, R74: one trailing pulse that the platform does not refuse. Before the last, only the count; the last takes
`t_conv` and `t_done` and writes the results, the timing registers, `smode` and `latched`, all in one step. -/
def Obligations.TrailPulse : Prop :=
  ∀ s : State, EngineTurn s → s.phase = .trail → nextAnswer s = .ok → nextAnswer (takeAnswer s) = .ok →
    (s.trailCount + 1 ≠ s.curN.toNat - 24 → step s = .next { s with
      agenda := s.agenda.tail, trailCount := s.trailCount + 1, clkOut := false
      trace := s.trace ++ [.clkSet true, .clkSet false], gpioIn := s.gpioIn.drop 2, freeCount := s.freeCount + 2 }) ∧
    (s.trailCount + 1 = s.curN.toNat - 24 → ∃ tConv tDone : Stamp,
      tConv = s.ts + BitVec.ofNat 64 (nextTicks (takeAnswer (takeAnswer s))) ∧
      tDone = tConv + BitVec.ofNat 64 (nextTicks (clockStep (takeAnswer (takeAnswer s)))) ∧
      step s = .next { s with
        agenda := s.agenda.tail, trailCount := s.trailCount + 1, clkOut := false
        trace := s.trace ++ [.clkSet true, .clkSet false, .ts tConv, .ts tDone]
        gpioIn := s.gpioIn.drop 2, clockIn := s.clockIn.drop 2, freeCount := s.freeCount + 4
        ts := tDone, tConv := tConv
        raw := s.shift.setWidth 32, result := s.shift.signExtend 32
        waitTime := (s.tReady - s.tCmd).setWidth 32, convTime := (tConv - s.tReady).setWidth 32
        totalTime := (tDone - s.tCmd).setWidth 32
        smode := s.latched, latched := if s.desync then none else some s.curN
        code := .ok, valid := true, phase := .idle })

/-- R100: a refused primitive of a pulse, in SHIFT or TRAIL, completes BUS_FAULT with DESYNC set and `latched` Unknown;
`smode`, RESULT, RAW and the timing registers, and everything but the lines, stay. -/
def Obligations.PulseBusFault : Prop :=
  ∀ s : State, EngineTurn s →
    (s.phase = .shift ∧ (nextAnswer s = .fault ∨ nextAnswer (takeAnswer s) = .fault ∨
        nextAnswer (takeLevel (takeAnswer (takeAnswer s))) = .fault) ∨
      s.phase = .trail ∧ (nextAnswer s = .fault ∨ nextAnswer (takeAnswer s) = .fault)) →
    ∃ t : State, step s = .next t ∧
      t = { s with
        agenda := s.agenda.tail, phase := .idle, code := .busFault, valid := true, desync := true, latched := none
        clkOut := false, trace := t.trace, gpioIn := t.gpioIn, dataIn := t.dataIn, freeCount := t.freeCount }

/-- R69: the RawSample is the two's-complement reading of the 24 bits; every value of [−2^23, 2^23 − 1] comes from exactly one. -/
def Obligations.SampleIsTwosComplement : Prop :=
  (∀ u : Sample, (sampleResult u).toInt = if u.toNat < 2 ^ 23 then (u.toNat : Int) else (u.toNat : Int) - 2 ^ 24) ∧
  (∀ u : Sample, sampleResult u =
    if u.getLsbD 23 then 0xFF000000#32 ||| u.setWidth 32 else u.setWidth 32) ∧
  (∀ z : Int, -2 ^ 23 ≤ z → z < 2 ^ 23 → ∃ u : Sample, (sampleResult u).toInt = z ∧
    ∀ v : Sample, (sampleResult v).toInt = z → v = u)

/-- R68: after the 24 SHIFT steps of a READ the first sampled bit is the most significant and the last the least. The run
is the one with an empty agenda, so that no other agent's step comes between (log 2), and with every answer `ok`. -/
def Obligations.ShiftClosedForm : Prop :=
  ∀ (s : State) (bits ds : List Level), s.params.pinsOk = true → s.agenda = [] →
    s.phase = .shift → s.bitCount = 0 → s.shift = 0 → OkAnswers 72 s →
    s.dataIn = bits ++ ds → bits.length = 24 →
    ∃ t : State, runSteps 24 s = .next t ∧ t.phase = .trail ∧ t.bitCount = 24 ∧
      t.shift.toNat = msbFirst bits ∧
      (∀ k, (h : k < bits.length) → t.shift.getLsbD (23 - k) = bits[k]) ∧
      t.trace = s.trace ++ bits.flatMap dataPulseEvents

/-- R62, R64–R74: a whole READ, in the run where its CMD write is all the agenda holds, so that the Engine then takes every
step (log 2). After `k` polls that see DATA high before the deadline and one that sees it low, with every answer `ok`, it
completes OK: the sampled bits in RESULT and RAW, the durations the clock gave, the modes of R74, the counters and timestamps
as the phases leave them, whatever the registers held; every other field of R13 but the trace is unchanged. -/
def Obligations.ReadDeliversSample : Prop :=
  ∀ (s : State) (n k : Nat) (bits ds : List Level) (c0 cConv cDone : Nat) (polls cs : List Nat),
    s.params.pinsOk = true → s.phase = .idle → n = 25 ∨ n = 26 ∨ n = 27 →
    s.agenda = [.regWrite 0 (encode (.read n))] → OkAnswers (k + 2 * n + 26) s →
    s.dataIn = List.replicate k true ++ false :: (bits ++ ds) → bits.length = 24 →
    s.clockIn = c0 :: (polls ++ cConv :: cDone :: cs) → polls.length = k + 1 →
    (0 < k → (polls.take k).sum < s.params.waitTimeout.val) →
    ∃ t : State, runSteps (k + 2 + n) s = .next t ∧
      t = { s with
        phase := .idle, code := .ok, valid := true
        raw := t.raw, result := sampleResult (BitVec.ofNat 24 (msbFirst bits))
        waitTime := BitVec.ofNat 32 polls.sum, convTime := BitVec.ofNat 32 cConv
        totalTime := BitVec.ofNat 32 (polls.sum + cConv + cDone)
        smode := s.latched, latched := if s.desync then none else some (BitVec.ofNat 5 n)
        curN := BitVec.ofNat 5 n, bitCount := 24, trailCount := n - 24, shift := BitVec.ofNat 24 (msbFirst bits)
        tCmd := s.ts + BitVec.ofNat 64 c0, tReady := s.ts + BitVec.ofNat 64 (c0 + polls.sum)
        tConv := s.ts + BitVec.ofNat 64 (c0 + polls.sum + cConv), ts := s.ts + BitVec.ofNat 64 (c0 + polls.sum + cConv + cDone)
        clkOut := false, trace := t.trace
        agenda := [], dataIn := ds, clockIn := cs, gpioIn := t.gpioIn, freeCount := t.freeCount } ∧
      t.raw.toNat = msbFirst bits

/-- R75, R71, R77: the lines of such a READ, in the same run (log 2): CLK low, the polls of which only the last is low, then exactly N pulses, the first
24 with one sample between the edges and the last N − 24 with none; N rising edges, and CLK low at the end. -/
def Obligations.ReadLineAccounting : Prop :=
  ∀ (s : State) (n k : Nat) (bits ds : List Level) (c0 : Nat) (polls cs : List Nat),
    s.params.pinsOk = true → s.phase = .idle → s.clkOut = false → n = 25 ∨ n = 26 ∨ n = 27 →
    s.agenda = [.regWrite 0 (encode (.read n))] → OkAnswers (k + 2 * n + 26) s →
    s.dataIn = List.replicate k true ++ false :: (bits ++ ds) → bits.length = 24 →
    s.clockIn = c0 :: (polls ++ cs) → polls.length = k + 1 →
    (0 < k → (polls.take k).sum < s.params.waitTimeout.val) →
    ∃ (t : State) (es : List Event), runSteps (k + 2 + n) s = .next t ∧ t.trace = s.trace ++ es ∧
      lineEvents es = .clkSet false :: (List.replicate k (.sample true) ++ .sample false ::
        (bits.flatMap dataPulseEvents ++ (List.replicate (n - 24) trailPulseEvents).flatten)) ∧
      risingEdges false es = n ∧ t.clkOut = false

/-- R66, R75: a READ that times out makes no rising edge from acceptance to completion, in the run where its CMD write is all
the agenda holds (log 2): CLK driven low, `k + 1` polls that see DATA high, the last at or past the deadline. DESYNC, `latched`,
`smode`, RESULT, RAW and the timing registers are unchanged. -/
def Obligations.TimedOutReadMakesNoEdge : Prop :=
  ∀ (s : State) (n k : Nat) (ds : List Level) (c0 : Nat) (polls cs : List Nat),
    s.params.pinsOk = true → s.phase = .idle → n = 25 ∨ n = 26 ∨ n = 27 →
    s.agenda = [.regWrite 0 (encode (.read n))] → OkAnswers (k + 2) s →
    s.dataIn = List.replicate (k + 1) true ++ ds → s.clockIn = c0 :: (polls ++ cs) → polls.length = k + 1 →
    (0 < k → (polls.take k).sum < s.params.waitTimeout.val) → s.params.waitTimeout.val ≤ polls.sum → polls.sum < 2 ^ 64 →
    ∃ (t : State) (es : List Event), runSteps (k + 2) s = .next t ∧
      t = { s with
        phase := .idle, code := .timeout, valid := true
        curN := BitVec.ofNat 5 n, bitCount := 0, trailCount := 0, shift := 0
        tCmd := s.ts + BitVec.ofNat 64 c0, ts := s.ts + BitVec.ofNat 64 (c0 + polls.sum)
        clkOut := false, trace := s.trace ++ es
        agenda := [], dataIn := ds, clockIn := cs, gpioIn := t.gpioIn, freeCount := t.freeCount } ∧
      lineEvents es = .clkSet false :: List.replicate (k + 1) (.sample true) ∧ risingEdges s.clkOut es = 0

/-- R66, R75: from the CMD write of a READ to the step that ends WAIT, or that ends the READ at validation or acceptance, CLK is
never driven high and no rising edge is made, whatever the other agents do in between, a reset apart. So a READ that ends in
TIMEOUT or INVALID_MODE made none. -/
def Obligations.NoEdgeBeforeShift : Prop :=
  ∀ (s t : State) (n j : Nat), s.phase = .idle → n < 32 → s.agenda.head? = some (.regWrite 0 (encode (.read n))) →
    (∀ i u, 1 ≤ i → i ≤ j → runSteps i s = .next u → u.phase = .wait ∧ ¬ ResetTurn u) →
    runSteps (j + 1) s = .next t →
    ∃ es : List Event, t.trace = s.trace ++ es ∧ (∀ e ∈ es, e ≠ .clkSet true ∧ e ≠ .clkFault true) ∧
      ∀ l, risingEdges l es = 0

/-- R97, R66: a READ that ends in TIMEOUT does so in a WAIT poll that saw DATA high at or past the deadline; the poll makes no
edge, and DESYNC, `latched` and `smode` are unchanged. -/
def Obligations.TimeoutOnlyFromWait : Prop :=
  ∀ s t : State, step s = .next t → t.code = .timeout →
    (s.phase ≠ .idle ∧ t.phase = .idle ∨ s.code ≠ .timeout) →
    s.phase = .wait ∧ t.phase = .idle ∧ s.params.waitTimeout.val ≤ (t.ts - s.tCmd).toNat ∧
    (∃ x, t.trace = s.trace ++ [.sample true, .ts x]) ∧ t.clkOut = s.clkOut ∧
    t.desync = s.desync ∧ t.latched = s.latched ∧ t.smode = s.smode

/-- R15, R76: `phase` moves only along IDLE → WAIT → SHIFT → TRAIL → IDLE, or to IDLE by completion, unless a reset acts; and
while a READ is in flight no step but the Engine's or a reset moves `phase` or touches what the READ has gathered. -/
def Obligations.PhaseOrder : Prop :=
  ∀ s t : State, step s = .next t → ¬ ResetTurn s →
    ((s.phase, t.phase) ∈ [(Phase.idle, Phase.idle), (.idle, .wait), (.wait, .wait), (.wait, .shift), (.wait, .idle),
      (.shift, .shift), (.shift, .trail), (.shift, .idle), (.trail, .trail), (.trail, .idle)]) ∧
    (s.phase ≠ .idle → ¬ EngineTurn s →
      t.phase = s.phase ∧ t.curN = s.curN ∧ t.bitCount = s.bitCount ∧ t.trailCount = s.trailCount ∧
      t.shift = s.shift ∧ t.tCmd = s.tCmd ∧ t.tReady = s.tReady ∧ t.trace = s.trace ∧ t.clkOut = s.clkOut ∧
      t.dataIn = s.dataIn ∧ t.gpioIn = s.gpioIn)

/-- R18, R19, R20, R93, R96: unless a reset acts, RESULT changes only in a step that completes a command OK, the last pulse of a
READ or the CMD write of an ENCODE or DECODE, and RAW and the timing registers only in the step that completes a READ OK; so a
failed command, a READ in flight, and every step that completes none, leave them all (R44, R119). -/
def Obligations.ResultsChangeOnlyOnSuccess : Prop :=
  ∀ s t : State, step s = .next t → ¬ ResetTurn s →
    (t.result ≠ s.result → t.phase = .idle ∧ t.code = .ok ∧ t.valid = true ∧
      (s.phase = .trail ∧ EngineTurn s ∨
        s.phase = .idle ∧ ∃ v i, s.agenda.head? = some (.regWrite 0 v) ∧ decode v = .ok i ∧ ∀ n, i ≠ .read n)) ∧
    (t.raw ≠ s.raw ∨ t.waitTime ≠ s.waitTime ∨ t.convTime ≠ s.convTime ∨ t.totalTime ≠ s.totalTime →
      s.phase = .trail ∧ EngineTurn s ∧ t.phase = .idle ∧ t.code = .ok ∧ t.valid = true)

/-- R77: a READ in SHIFT or TRAIL under every interleaving, unless a reset acts: each step of the Engine makes one of the pulses
left, or ends the READ, by a bus fault or, with the last pulse, OK; a step of another agent leaves phase and pulses alone. -/
def Obligations.EachEngineStepMakesOnePulse : Prop :=
  ∀ s t : State, Invariant s → step s = .next t → ¬ ResetTurn s → s.phase = .shift ∨ s.phase = .trail →
    (EngineTurn s →
      t.phase = .idle ∧ (t.code = .busFault ∨ t.code = .ok ∧ s.phase = .trail ∧ pulsesLeft s = 1) ∨
      (t.phase = .shift ∨ t.phase = .trail) ∧ pulsesLeft s = pulsesLeft t + 1) ∧
    (¬ EngineTurn s → t.phase = s.phase ∧ pulsesLeft t = pulsesLeft s)

/-- R77: a READ in SHIFT or TRAIL ends within the pulses left, at most 27, whatever the platform answers and the converter
presents, in the run with an empty agenda, where the Engine takes every step (log 2). -/
def Obligations.PulsePhasesBounded : Prop :=
  ∀ s : State, Invariant s → s.params.pinsOk = true → s.agenda = [] → s.phase = .shift ∨ s.phase = .trail →
    pulsesLeft s ≤ 27 ∧ ∃ (j : Nat) (t : State), j ≤ pulsesLeft s ∧ runSteps j s = .next t ∧ t.phase = .idle

/-- R124, R65: if the clock goes on, WAIT ends, in the run with an empty agenda, where the Engine takes every step (log 2). The
clock's going on is a hypothesis, as the fairness of R124 is (log 19): at least one tick before every poll. Then within
`WAIT_TIMEOUT` + 1 polls, from wherever in WAIT the READ stands, it has left WAIT, whatever the converter presents and the
platform answers. -/
def Obligations.WaitEndsByDeadline : Prop :=
  ∀ s : State, s.params.pinsOk = true → s.agenda = [] → s.phase = .wait →
    s.params.waitTimeout.val + 1 ≤ s.clockIn.length →
    (∀ c ∈ s.clockIn.take (s.params.waitTimeout.val + 1), 1 ≤ c) →
    (s.ts - s.tCmd).toNat + (s.clockIn.take (s.params.waitTimeout.val + 1)).sum < 2 ^ 64 →
    ∃ (j : Nat) (t : State), j ≤ s.params.waitTimeout.val + 1 ∧
      runSteps j s = .next t ∧ t.phase ≠ .wait

/-- R91: with fewer than 2^32 ticks from `t_cmd` to `t_done`, TOTAL_TIME is WAIT_TIME + CONV_TIME + the overhead the two last
timestamps give. -/
def Obligations.TotalIsWaitPlusConvPlusOverhead : Prop :=
  ∀ (tCmd : Stamp) (a b c : Nat), a + b + c < 2 ^ 32 →
    let tReady := tCmd + BitVec.ofNat 64 a
    let tConv := tReady + BitVec.ofNat 64 b
    let tDone := tConv + BitVec.ofNat 64 c
    (duration tDone tCmd).toNat = (duration tReady tCmd).toNat + (duration tConv tReady).toNat + (tDone - tConv).toNat ∧
    (duration tReady tCmd).toNat = a ∧ (duration tConv tReady).toNat = b ∧ (tDone - tConv).toNat = c

/-! ## ENCODE and DECODE -/

/-- R80: ENCODE of every mode code: three modes give their pulse count, a malformed code INVALID_ARGUMENT, any other
INVALID_MODE; nothing but RESULT (on success), `code` and `valid` changes, in the step of the write. -/
def Obligations.EncodeOutcomes : Prop :=
  ∀ (ch : Channel) (x : BitVec 2) (g : GainField) (s : State), s.phase = .idle →
    exec (.encode ch x g) s = .next (
      if x ≠ 0 ∨ g = .reserved then { s with code := .invalidArgument, valid := true }
      else if ch = .A ∧ g = .g128 then { s with result := 25, code := .ok, valid := true }
      else if ch = .A ∧ g = .g64 then { s with result := 27, code := .ok, valid := true }
      else if ch = .B ∧ g = .g32 then { s with result := 26, code := .ok, valid := true }
      else { s with code := .invalidMode, valid := true })

/-- R81: DECODE of every pulse count: 25, 26, 27 give their mode code, any other INVALID_MODE; nothing but RESULT (on
success), `code` and `valid` changes, in the step of the write. -/
def Obligations.DecodeOutcomes : Prop :=
  ∀ (n : Nat) (s : State), s.phase = .idle →
    exec (.decode n) s = .next (
      if n = 25 then { s with result := 0x00, code := .ok, valid := true }
      else if n = 26 then { s with result := 0x12, code := .ok, valid := true }
      else if n = 27 then { s with result := 0x01, code := .ok, valid := true }
      else { s with code := .invalidMode, valid := true })

/-- R83: DECODE(ENCODE(c)) returns c for each of the three mode codes and ENCODE(DECODE(N)) returns N for 25, 26 and 27, each
command completing OK; nothing else that either accepts comes back otherwise; every other pulse count is INVALID_MODE under
DECODE and under READ. -/
def Obligations.ModeBijection : Prop :=
  (∀ (c : BitVec 5) (s : State), c = 0x00 ∨ c = 0x12 ∨ c = 0x01 → s.phase = .idle → ∃ t u : State,
    exec (encodeOperands c) s = .next t ∧ t.code = .ok ∧ t.phase = .idle ∧
    exec (.decode t.result.toNat) t = .next u ∧ u.code = .ok ∧ u.result = c.setWidth 32) ∧
  (∀ (n : Nat) (s : State), n = 25 ∨ n = 26 ∨ n = 27 → s.phase = .idle → ∃ t u : State,
    exec (.decode n) s = .next t ∧ t.code = .ok ∧ t.phase = .idle ∧
    exec (encodeOperands (t.result.setWidth 5)) t = .next u ∧ u.code = .ok ∧ u.result = BitVec.ofNat 32 n) ∧
  (∀ (ch : Channel) (x : BitVec 2) (g : GainField) (v : Word), encodeOutcome ch x g = .ok v →
    decodeOutcome v.toNat = .ok ((modeCode ch x g).setWidth 32)) ∧
  (∀ (n : Nat) (c : Word), decodeOutcome n = .ok c →
    ∃ ch g, modeCode ch 0 g = c.setWidth 5 ∧ encodeOutcome ch 0 g = .ok (BitVec.ofNat 32 n)) ∧
  (∀ n : Nat, ¬ (n = 25 ∨ n = 26 ∨ n = 27) →
    decodeOutcome n = .error .invalidMode ∧ ∀ s, exec (.read n) s = .next (complete .invalidMode s))

/-! ## Status flags and reset -/

/-- R24, R25: `valid` and `overrun`, once set, are cleared only by a reset; `valid` is set in any step that ends a command, be
it one in flight or one that completes in the step of its CMD write; nothing else sets `valid`, and nothing but a CMD write
while busy sets `overrun`. -/
def Obligations.StickyValidAndOverrun : Prop :=
  ∀ s t : State, step s = .next t → ¬ ResetTurn s →
    (s.valid = true → t.valid = true) ∧ (s.overrun = true → t.overrun = true) ∧
    (s.phase ≠ .idle → t.phase = .idle → t.valid = true) ∧
    (∀ v, s.phase = .idle → s.agenda.head? = some (.regWrite 0 v) → t.phase = .idle → t.valid = true) ∧
    (s.valid = false → t.valid = true → t.phase = .idle ∧
      (s.phase ≠ .idle ∨ ∃ v, s.agenda.head? = some (.regWrite 0 v))) ∧
    (s.overrun = false → t.overrun = true → s.phase ≠ .idle ∧ ∃ v, s.agenda.head? = some (.regWrite 0 v))

/-- R26, R27, R101: DESYNC, once set, is cleared only by a power-on reset, and `latched` is Unknown after every step that
leaves it set, the step that sets it included, from every state where R29 holds of the two. -/
def Obligations.DesyncOnlyClearedByPowerOn : Prop :=
  ∀ s t : State, step s = .next t →
    (s.agenda.head? ≠ some (.reset .por) → s.desync = true → t.desync = true) ∧
    ((s.desync = true → s.latched = none) → t.desync = true → t.latched = none)

/-- R112: every engine field after a reset of either kind; a command in flight vanishes with no completion code; DESYNC is 0
after a power-on reset, and kept, or set where SHIFT or TRAIL was cut short, by an engine reset. `ts` may be anything.
That the trace starts afresh is log 9, that the agenda and inputs stay is log 11, and that a refused CLK drive is recorded,
sets no DESYNC and lets the machine go on is log 12. -/
def Obligations.ResetEffect : Prop :=
  ∀ (s : State) (k : ResetKind) (rest : List Move), s.params.pinsOk = true → s.agenda = .reset k :: rest →
    ∃ t : State, step s = .next t ∧
      t = { State.reset with
        params := s.params, agenda := rest, dataIn := s.dataIn, hostReads := s.hostReads, clockIn := s.clockIn
        gpioIn := s.gpioIn.tail, freeCount := s.freeCount + 2, ts := t.ts
        trace := [.reset k, clkEvent false (nextAnswer { s with freeCount := s.freeCount + 1 })]
        desync := match k with
          | .por => false
          | .er => s.desync || decide (s.phase = .shift ∨ s.phase = .trail) }

/-- R13, R32: the machine after reset: IDLE, every register 0, modes Unknown, CLK low, STATUS and all indices read 0. -/
def Obligations.ResetState : Prop :=
  State.reset.phase = .idle ∧ State.reset.curN = 0 ∧ State.reset.bitCount = 0 ∧ State.reset.trailCount = 0 ∧
  State.reset.shift = 0 ∧ State.reset.tCmd = 0 ∧ State.reset.tReady = 0 ∧ State.reset.tConv = 0 ∧
  State.reset.code = .ok ∧ State.reset.valid = false ∧ State.reset.overrun = false ∧ State.reset.desync = false ∧
  State.reset.latched = none ∧ State.reset.smode = none ∧ State.reset.clkOut = false ∧
  ∀ idx : RegIndex, regRead idx State.reset = 0

/-! ## The invariant and what cannot be told apart -/

/-- R29: the invariant holds after reset. -/
def Obligations.ResetMeetsInvariant : Prop := Invariant State.reset

/-- R29: every step of every agent keeps the invariant. -/
def Obligations.StepKeepsInvariant : Prop :=
  ∀ s t : State, Invariant s → step s = .next t → Invariant t

/-- R56: the engine never reads `trace`: states that differ only there step to states that differ only there. -/
def Obligations.TraceNeverRead : Prop :=
  ∀ (s : State) (tr : List Event),
    OutcomesAgree (fun t v => v = { t with trace := v.trace }) (step s) (step { s with trace := tr })

/-- R22: no rule depends on the absolute value of `ts`: a machine whose clock is later by `δ` steps alike, so that every
register the host reads stays the same. -/
def Obligations.AbsoluteTimeUnseen : Prop :=
  ∀ (δ : Stamp) (s u : State), TimeShifted δ s u →
    OutcomesAgree (fun t v => ∃ δ', TimeShifted δ' t v) (step s) (step u)

/-- R8: a step from a well-formed configuration takes a next state, whatever the state holds, unless the agenda gives an IDLE
Engine the move (log 17): no error of the block stops the machine. -/
def Obligations.WellFormedStepsGoOn : Prop :=
  ∀ s : State, s.params.pinsOk = true → ¬ (s.phase = .idle ∧ s.agenda.head? = some .engine) → StepSafe s
end

