-- ==== Sys2Proof/Laws/State.lean ====
section
/-! SUPPORT. One lemma per field per update of State by a shared operation, so that no later proof unfolds a record update. -/

namespace Sys2Proof.Machine

/-! ### `emit` -/

@[simp] theorem emit_phase (e : Event) (s : State) : (emit e s).phase = s.phase := rfl
@[simp] theorem emit_curN (e : Event) (s : State) : (emit e s).curN = s.curN := rfl
@[simp] theorem emit_bitCount (e : Event) (s : State) : (emit e s).bitCount = s.bitCount := rfl
@[simp] theorem emit_trailCount (e : Event) (s : State) : (emit e s).trailCount = s.trailCount := rfl
@[simp] theorem emit_shift (e : Event) (s : State) : (emit e s).shift = s.shift := rfl
@[simp] theorem emit_tCmd (e : Event) (s : State) : (emit e s).tCmd = s.tCmd := rfl
@[simp] theorem emit_tReady (e : Event) (s : State) : (emit e s).tReady = s.tReady := rfl
@[simp] theorem emit_tConv (e : Event) (s : State) : (emit e s).tConv = s.tConv := rfl
@[simp] theorem emit_result (e : Event) (s : State) : (emit e s).result = s.result := rfl
@[simp] theorem emit_raw (e : Event) (s : State) : (emit e s).raw = s.raw := rfl
@[simp] theorem emit_waitTime (e : Event) (s : State) : (emit e s).waitTime = s.waitTime := rfl
@[simp] theorem emit_convTime (e : Event) (s : State) : (emit e s).convTime = s.convTime := rfl
@[simp] theorem emit_totalTime (e : Event) (s : State) : (emit e s).totalTime = s.totalTime := rfl
@[simp] theorem emit_code (e : Event) (s : State) : (emit e s).code = s.code := rfl
@[simp] theorem emit_valid (e : Event) (s : State) : (emit e s).valid = s.valid := rfl
@[simp] theorem emit_overrun (e : Event) (s : State) : (emit e s).overrun = s.overrun := rfl
@[simp] theorem emit_desync (e : Event) (s : State) : (emit e s).desync = s.desync := rfl
@[simp] theorem emit_latched (e : Event) (s : State) : (emit e s).latched = s.latched := rfl
@[simp] theorem emit_smode (e : Event) (s : State) : (emit e s).smode = s.smode := rfl
@[simp] theorem emit_clkOut (e : Event) (s : State) : (emit e s).clkOut = s.clkOut := rfl
@[simp] theorem emit_ts (e : Event) (s : State) : (emit e s).ts = s.ts := rfl
@[simp] theorem emit_trace (e : Event) (s : State) : (emit e s).trace = s.trace ++ [e] := rfl
@[simp] theorem emit_clkDir (e : Event) (s : State) : (emit e s).clkDir = s.clkDir := rfl
@[simp] theorem emit_dataDir (e : Event) (s : State) : (emit e s).dataDir = s.dataDir := rfl
@[simp] theorem emit_params (e : Event) (s : State) : (emit e s).params = s.params := rfl
@[simp] theorem emit_agenda (e : Event) (s : State) : (emit e s).agenda = s.agenda := rfl
@[simp] theorem emit_dataIn (e : Event) (s : State) : (emit e s).dataIn = s.dataIn := rfl
@[simp] theorem emit_gpioIn (e : Event) (s : State) : (emit e s).gpioIn = s.gpioIn := rfl
@[simp] theorem emit_clockIn (e : Event) (s : State) : (emit e s).clockIn = s.clockIn := rfl
@[simp] theorem emit_freeCount (e : Event) (s : State) : (emit e s).freeCount = s.freeCount := rfl
@[simp] theorem emit_hostReads (e : Event) (s : State) : (emit e s).hostReads = s.hostReads := rfl

/-! ### `takeLevel` -/

@[simp] theorem takeLevel_phase (s : State) : (takeLevel s).phase = s.phase := rfl
@[simp] theorem takeLevel_curN (s : State) : (takeLevel s).curN = s.curN := rfl
@[simp] theorem takeLevel_bitCount (s : State) : (takeLevel s).bitCount = s.bitCount := rfl
@[simp] theorem takeLevel_trailCount (s : State) : (takeLevel s).trailCount = s.trailCount := rfl
@[simp] theorem takeLevel_shift (s : State) : (takeLevel s).shift = s.shift := rfl
@[simp] theorem takeLevel_tCmd (s : State) : (takeLevel s).tCmd = s.tCmd := rfl
@[simp] theorem takeLevel_tReady (s : State) : (takeLevel s).tReady = s.tReady := rfl
@[simp] theorem takeLevel_tConv (s : State) : (takeLevel s).tConv = s.tConv := rfl
@[simp] theorem takeLevel_result (s : State) : (takeLevel s).result = s.result := rfl
@[simp] theorem takeLevel_raw (s : State) : (takeLevel s).raw = s.raw := rfl
@[simp] theorem takeLevel_waitTime (s : State) : (takeLevel s).waitTime = s.waitTime := rfl
@[simp] theorem takeLevel_convTime (s : State) : (takeLevel s).convTime = s.convTime := rfl
@[simp] theorem takeLevel_totalTime (s : State) : (takeLevel s).totalTime = s.totalTime := rfl
@[simp] theorem takeLevel_code (s : State) : (takeLevel s).code = s.code := rfl
@[simp] theorem takeLevel_valid (s : State) : (takeLevel s).valid = s.valid := rfl
@[simp] theorem takeLevel_overrun (s : State) : (takeLevel s).overrun = s.overrun := rfl
@[simp] theorem takeLevel_desync (s : State) : (takeLevel s).desync = s.desync := rfl
@[simp] theorem takeLevel_latched (s : State) : (takeLevel s).latched = s.latched := rfl
@[simp] theorem takeLevel_smode (s : State) : (takeLevel s).smode = s.smode := rfl
@[simp] theorem takeLevel_clkOut (s : State) : (takeLevel s).clkOut = s.clkOut := rfl
@[simp] theorem takeLevel_ts (s : State) : (takeLevel s).ts = s.ts := rfl
@[simp] theorem takeLevel_trace (s : State) : (takeLevel s).trace = s.trace := rfl
@[simp] theorem takeLevel_clkDir (s : State) : (takeLevel s).clkDir = s.clkDir := rfl
@[simp] theorem takeLevel_dataDir (s : State) : (takeLevel s).dataDir = s.dataDir := rfl
@[simp] theorem takeLevel_params (s : State) : (takeLevel s).params = s.params := rfl
@[simp] theorem takeLevel_agenda (s : State) : (takeLevel s).agenda = s.agenda := rfl
@[simp] theorem takeLevel_dataIn (s : State) : (takeLevel s).dataIn = s.dataIn.tail := rfl
@[simp] theorem takeLevel_gpioIn (s : State) : (takeLevel s).gpioIn = s.gpioIn := rfl
@[simp] theorem takeLevel_clockIn (s : State) : (takeLevel s).clockIn = s.clockIn := rfl
@[simp] theorem takeLevel_freeCount (s : State) : (takeLevel s).freeCount = s.freeCount + 1 := rfl
@[simp] theorem takeLevel_hostReads (s : State) : (takeLevel s).hostReads = s.hostReads := rfl

/-! ### `takeAnswer` -/

@[simp] theorem takeAnswer_phase (s : State) : (takeAnswer s).phase = s.phase := rfl
@[simp] theorem takeAnswer_curN (s : State) : (takeAnswer s).curN = s.curN := rfl
@[simp] theorem takeAnswer_bitCount (s : State) : (takeAnswer s).bitCount = s.bitCount := rfl
@[simp] theorem takeAnswer_trailCount (s : State) : (takeAnswer s).trailCount = s.trailCount := rfl
@[simp] theorem takeAnswer_shift (s : State) : (takeAnswer s).shift = s.shift := rfl
@[simp] theorem takeAnswer_tCmd (s : State) : (takeAnswer s).tCmd = s.tCmd := rfl
@[simp] theorem takeAnswer_tReady (s : State) : (takeAnswer s).tReady = s.tReady := rfl
@[simp] theorem takeAnswer_tConv (s : State) : (takeAnswer s).tConv = s.tConv := rfl
@[simp] theorem takeAnswer_result (s : State) : (takeAnswer s).result = s.result := rfl
@[simp] theorem takeAnswer_raw (s : State) : (takeAnswer s).raw = s.raw := rfl
@[simp] theorem takeAnswer_waitTime (s : State) : (takeAnswer s).waitTime = s.waitTime := rfl
@[simp] theorem takeAnswer_convTime (s : State) : (takeAnswer s).convTime = s.convTime := rfl
@[simp] theorem takeAnswer_totalTime (s : State) : (takeAnswer s).totalTime = s.totalTime := rfl
@[simp] theorem takeAnswer_code (s : State) : (takeAnswer s).code = s.code := rfl
@[simp] theorem takeAnswer_valid (s : State) : (takeAnswer s).valid = s.valid := rfl
@[simp] theorem takeAnswer_overrun (s : State) : (takeAnswer s).overrun = s.overrun := rfl
@[simp] theorem takeAnswer_desync (s : State) : (takeAnswer s).desync = s.desync := rfl
@[simp] theorem takeAnswer_latched (s : State) : (takeAnswer s).latched = s.latched := rfl
@[simp] theorem takeAnswer_smode (s : State) : (takeAnswer s).smode = s.smode := rfl
@[simp] theorem takeAnswer_clkOut (s : State) : (takeAnswer s).clkOut = s.clkOut := rfl
@[simp] theorem takeAnswer_ts (s : State) : (takeAnswer s).ts = s.ts := rfl
@[simp] theorem takeAnswer_trace (s : State) : (takeAnswer s).trace = s.trace := rfl
@[simp] theorem takeAnswer_clkDir (s : State) : (takeAnswer s).clkDir = s.clkDir := rfl
@[simp] theorem takeAnswer_dataDir (s : State) : (takeAnswer s).dataDir = s.dataDir := rfl
@[simp] theorem takeAnswer_params (s : State) : (takeAnswer s).params = s.params := rfl
@[simp] theorem takeAnswer_agenda (s : State) : (takeAnswer s).agenda = s.agenda := rfl
@[simp] theorem takeAnswer_dataIn (s : State) : (takeAnswer s).dataIn = s.dataIn := rfl
@[simp] theorem takeAnswer_gpioIn (s : State) : (takeAnswer s).gpioIn = s.gpioIn.tail := rfl
@[simp] theorem takeAnswer_clockIn (s : State) : (takeAnswer s).clockIn = s.clockIn := rfl
@[simp] theorem takeAnswer_freeCount (s : State) : (takeAnswer s).freeCount = s.freeCount + 1 := rfl
@[simp] theorem takeAnswer_hostReads (s : State) : (takeAnswer s).hostReads = s.hostReads := rfl

/-! ### `clockAdvance` -/

@[simp] theorem clockAdvance_phase (k : Nat) (s : State) : (clockAdvance k s).phase = s.phase := rfl
@[simp] theorem clockAdvance_curN (k : Nat) (s : State) : (clockAdvance k s).curN = s.curN := rfl
@[simp] theorem clockAdvance_bitCount (k : Nat) (s : State) : (clockAdvance k s).bitCount = s.bitCount := rfl
@[simp] theorem clockAdvance_trailCount (k : Nat) (s : State) : (clockAdvance k s).trailCount = s.trailCount := rfl
@[simp] theorem clockAdvance_shift (k : Nat) (s : State) : (clockAdvance k s).shift = s.shift := rfl
@[simp] theorem clockAdvance_tCmd (k : Nat) (s : State) : (clockAdvance k s).tCmd = s.tCmd := rfl
@[simp] theorem clockAdvance_tReady (k : Nat) (s : State) : (clockAdvance k s).tReady = s.tReady := rfl
@[simp] theorem clockAdvance_tConv (k : Nat) (s : State) : (clockAdvance k s).tConv = s.tConv := rfl
@[simp] theorem clockAdvance_result (k : Nat) (s : State) : (clockAdvance k s).result = s.result := rfl
@[simp] theorem clockAdvance_raw (k : Nat) (s : State) : (clockAdvance k s).raw = s.raw := rfl
@[simp] theorem clockAdvance_waitTime (k : Nat) (s : State) : (clockAdvance k s).waitTime = s.waitTime := rfl
@[simp] theorem clockAdvance_convTime (k : Nat) (s : State) : (clockAdvance k s).convTime = s.convTime := rfl
@[simp] theorem clockAdvance_totalTime (k : Nat) (s : State) : (clockAdvance k s).totalTime = s.totalTime := rfl
@[simp] theorem clockAdvance_code (k : Nat) (s : State) : (clockAdvance k s).code = s.code := rfl
@[simp] theorem clockAdvance_valid (k : Nat) (s : State) : (clockAdvance k s).valid = s.valid := rfl
@[simp] theorem clockAdvance_overrun (k : Nat) (s : State) : (clockAdvance k s).overrun = s.overrun := rfl
@[simp] theorem clockAdvance_desync (k : Nat) (s : State) : (clockAdvance k s).desync = s.desync := rfl
@[simp] theorem clockAdvance_latched (k : Nat) (s : State) : (clockAdvance k s).latched = s.latched := rfl
@[simp] theorem clockAdvance_smode (k : Nat) (s : State) : (clockAdvance k s).smode = s.smode := rfl
@[simp] theorem clockAdvance_clkOut (k : Nat) (s : State) : (clockAdvance k s).clkOut = s.clkOut := rfl
@[simp] theorem clockAdvance_ts (k : Nat) (s : State) : (clockAdvance k s).ts = s.ts + BitVec.ofNat 64 k := rfl
@[simp] theorem clockAdvance_trace (k : Nat) (s : State) : (clockAdvance k s).trace = s.trace := rfl
@[simp] theorem clockAdvance_clkDir (k : Nat) (s : State) : (clockAdvance k s).clkDir = s.clkDir := rfl
@[simp] theorem clockAdvance_dataDir (k : Nat) (s : State) : (clockAdvance k s).dataDir = s.dataDir := rfl
@[simp] theorem clockAdvance_params (k : Nat) (s : State) : (clockAdvance k s).params = s.params := rfl
@[simp] theorem clockAdvance_agenda (k : Nat) (s : State) : (clockAdvance k s).agenda = s.agenda := rfl
@[simp] theorem clockAdvance_dataIn (k : Nat) (s : State) : (clockAdvance k s).dataIn = s.dataIn := rfl
@[simp] theorem clockAdvance_gpioIn (k : Nat) (s : State) : (clockAdvance k s).gpioIn = s.gpioIn := rfl
@[simp] theorem clockAdvance_clockIn (k : Nat) (s : State) : (clockAdvance k s).clockIn = s.clockIn := rfl
@[simp] theorem clockAdvance_freeCount (k : Nat) (s : State) : (clockAdvance k s).freeCount = s.freeCount := rfl
@[simp] theorem clockAdvance_hostReads (k : Nat) (s : State) : (clockAdvance k s).hostReads = s.hostReads := rfl

/-! ### `clockStep` -/

@[simp] theorem clockStep_phase (s : State) : (clockStep s).phase = s.phase := rfl
@[simp] theorem clockStep_curN (s : State) : (clockStep s).curN = s.curN := rfl
@[simp] theorem clockStep_bitCount (s : State) : (clockStep s).bitCount = s.bitCount := rfl
@[simp] theorem clockStep_trailCount (s : State) : (clockStep s).trailCount = s.trailCount := rfl
@[simp] theorem clockStep_shift (s : State) : (clockStep s).shift = s.shift := rfl
@[simp] theorem clockStep_tCmd (s : State) : (clockStep s).tCmd = s.tCmd := rfl
@[simp] theorem clockStep_tReady (s : State) : (clockStep s).tReady = s.tReady := rfl
@[simp] theorem clockStep_tConv (s : State) : (clockStep s).tConv = s.tConv := rfl
@[simp] theorem clockStep_result (s : State) : (clockStep s).result = s.result := rfl
@[simp] theorem clockStep_raw (s : State) : (clockStep s).raw = s.raw := rfl
@[simp] theorem clockStep_waitTime (s : State) : (clockStep s).waitTime = s.waitTime := rfl
@[simp] theorem clockStep_convTime (s : State) : (clockStep s).convTime = s.convTime := rfl
@[simp] theorem clockStep_totalTime (s : State) : (clockStep s).totalTime = s.totalTime := rfl
@[simp] theorem clockStep_code (s : State) : (clockStep s).code = s.code := rfl
@[simp] theorem clockStep_valid (s : State) : (clockStep s).valid = s.valid := rfl
@[simp] theorem clockStep_overrun (s : State) : (clockStep s).overrun = s.overrun := rfl
@[simp] theorem clockStep_desync (s : State) : (clockStep s).desync = s.desync := rfl
@[simp] theorem clockStep_latched (s : State) : (clockStep s).latched = s.latched := rfl
@[simp] theorem clockStep_smode (s : State) : (clockStep s).smode = s.smode := rfl
@[simp] theorem clockStep_clkOut (s : State) : (clockStep s).clkOut = s.clkOut := rfl
@[simp] theorem clockStep_ts (s : State) : (clockStep s).ts = s.ts + BitVec.ofNat 64 (nextTicks s) := rfl
@[simp] theorem clockStep_trace (s : State) : (clockStep s).trace = s.trace := rfl
@[simp] theorem clockStep_clkDir (s : State) : (clockStep s).clkDir = s.clkDir := rfl
@[simp] theorem clockStep_dataDir (s : State) : (clockStep s).dataDir = s.dataDir := rfl
@[simp] theorem clockStep_params (s : State) : (clockStep s).params = s.params := rfl
@[simp] theorem clockStep_agenda (s : State) : (clockStep s).agenda = s.agenda := rfl
@[simp] theorem clockStep_dataIn (s : State) : (clockStep s).dataIn = s.dataIn := rfl
@[simp] theorem clockStep_gpioIn (s : State) : (clockStep s).gpioIn = s.gpioIn := rfl
@[simp] theorem clockStep_clockIn (s : State) : (clockStep s).clockIn = s.clockIn.tail := rfl
@[simp] theorem clockStep_freeCount (s : State) : (clockStep s).freeCount = s.freeCount + 1 := rfl
@[simp] theorem clockStep_hostReads (s : State) : (clockStep s).hostReads = s.hostReads := rfl

/-! ### `complete` -/

@[simp] theorem complete_phase (c : Code) (s : State) : (complete c s).phase = .idle := rfl
@[simp] theorem complete_curN (c : Code) (s : State) : (complete c s).curN = s.curN := rfl
@[simp] theorem complete_bitCount (c : Code) (s : State) : (complete c s).bitCount = s.bitCount := rfl
@[simp] theorem complete_trailCount (c : Code) (s : State) : (complete c s).trailCount = s.trailCount := rfl
@[simp] theorem complete_shift (c : Code) (s : State) : (complete c s).shift = s.shift := rfl
@[simp] theorem complete_tCmd (c : Code) (s : State) : (complete c s).tCmd = s.tCmd := rfl
@[simp] theorem complete_tReady (c : Code) (s : State) : (complete c s).tReady = s.tReady := rfl
@[simp] theorem complete_tConv (c : Code) (s : State) : (complete c s).tConv = s.tConv := rfl
@[simp] theorem complete_result (c : Code) (s : State) : (complete c s).result = s.result := rfl
@[simp] theorem complete_raw (c : Code) (s : State) : (complete c s).raw = s.raw := rfl
@[simp] theorem complete_waitTime (c : Code) (s : State) : (complete c s).waitTime = s.waitTime := rfl
@[simp] theorem complete_convTime (c : Code) (s : State) : (complete c s).convTime = s.convTime := rfl
@[simp] theorem complete_totalTime (c : Code) (s : State) : (complete c s).totalTime = s.totalTime := rfl
@[simp] theorem complete_code (c : Code) (s : State) : (complete c s).code = c := rfl
@[simp] theorem complete_valid (c : Code) (s : State) : (complete c s).valid = true := rfl
@[simp] theorem complete_overrun (c : Code) (s : State) : (complete c s).overrun = s.overrun := rfl
@[simp] theorem complete_desync (c : Code) (s : State) : (complete c s).desync = s.desync := rfl
@[simp] theorem complete_latched (c : Code) (s : State) : (complete c s).latched = s.latched := rfl
@[simp] theorem complete_smode (c : Code) (s : State) : (complete c s).smode = s.smode := rfl
@[simp] theorem complete_clkOut (c : Code) (s : State) : (complete c s).clkOut = s.clkOut := rfl
@[simp] theorem complete_ts (c : Code) (s : State) : (complete c s).ts = s.ts := rfl
@[simp] theorem complete_trace (c : Code) (s : State) : (complete c s).trace = s.trace := rfl
@[simp] theorem complete_clkDir (c : Code) (s : State) : (complete c s).clkDir = s.clkDir := rfl
@[simp] theorem complete_dataDir (c : Code) (s : State) : (complete c s).dataDir = s.dataDir := rfl
@[simp] theorem complete_params (c : Code) (s : State) : (complete c s).params = s.params := rfl
@[simp] theorem complete_agenda (c : Code) (s : State) : (complete c s).agenda = s.agenda := rfl
@[simp] theorem complete_dataIn (c : Code) (s : State) : (complete c s).dataIn = s.dataIn := rfl
@[simp] theorem complete_gpioIn (c : Code) (s : State) : (complete c s).gpioIn = s.gpioIn := rfl
@[simp] theorem complete_clockIn (c : Code) (s : State) : (complete c s).clockIn = s.clockIn := rfl
@[simp] theorem complete_freeCount (c : Code) (s : State) : (complete c s).freeCount = s.freeCount := rfl
@[simp] theorem complete_hostReads (c : Code) (s : State) : (complete c s).hostReads = s.hostReads := rfl

/-! ### `busFaultDesync` -/

@[simp] theorem busFaultDesync_phase (s : State) : (busFaultDesync s).phase = .idle := rfl
@[simp] theorem busFaultDesync_curN (s : State) : (busFaultDesync s).curN = s.curN := rfl
@[simp] theorem busFaultDesync_bitCount (s : State) : (busFaultDesync s).bitCount = s.bitCount := rfl
@[simp] theorem busFaultDesync_trailCount (s : State) : (busFaultDesync s).trailCount = s.trailCount := rfl
@[simp] theorem busFaultDesync_shift (s : State) : (busFaultDesync s).shift = s.shift := rfl
@[simp] theorem busFaultDesync_tCmd (s : State) : (busFaultDesync s).tCmd = s.tCmd := rfl
@[simp] theorem busFaultDesync_tReady (s : State) : (busFaultDesync s).tReady = s.tReady := rfl
@[simp] theorem busFaultDesync_tConv (s : State) : (busFaultDesync s).tConv = s.tConv := rfl
@[simp] theorem busFaultDesync_result (s : State) : (busFaultDesync s).result = s.result := rfl
@[simp] theorem busFaultDesync_raw (s : State) : (busFaultDesync s).raw = s.raw := rfl
@[simp] theorem busFaultDesync_waitTime (s : State) : (busFaultDesync s).waitTime = s.waitTime := rfl
@[simp] theorem busFaultDesync_convTime (s : State) : (busFaultDesync s).convTime = s.convTime := rfl
@[simp] theorem busFaultDesync_totalTime (s : State) : (busFaultDesync s).totalTime = s.totalTime := rfl
@[simp] theorem busFaultDesync_code (s : State) : (busFaultDesync s).code = .busFault := rfl
@[simp] theorem busFaultDesync_valid (s : State) : (busFaultDesync s).valid = true := rfl
@[simp] theorem busFaultDesync_overrun (s : State) : (busFaultDesync s).overrun = s.overrun := rfl
@[simp] theorem busFaultDesync_desync (s : State) : (busFaultDesync s).desync = true := rfl
@[simp] theorem busFaultDesync_latched (s : State) : (busFaultDesync s).latched = none := rfl
@[simp] theorem busFaultDesync_smode (s : State) : (busFaultDesync s).smode = s.smode := rfl
@[simp] theorem busFaultDesync_clkOut (s : State) : (busFaultDesync s).clkOut = s.clkOut := rfl
@[simp] theorem busFaultDesync_ts (s : State) : (busFaultDesync s).ts = s.ts := rfl
@[simp] theorem busFaultDesync_trace (s : State) : (busFaultDesync s).trace = s.trace := rfl
@[simp] theorem busFaultDesync_clkDir (s : State) : (busFaultDesync s).clkDir = s.clkDir := rfl
@[simp] theorem busFaultDesync_dataDir (s : State) : (busFaultDesync s).dataDir = s.dataDir := rfl
@[simp] theorem busFaultDesync_params (s : State) : (busFaultDesync s).params = s.params := rfl
@[simp] theorem busFaultDesync_agenda (s : State) : (busFaultDesync s).agenda = s.agenda := rfl
@[simp] theorem busFaultDesync_dataIn (s : State) : (busFaultDesync s).dataIn = s.dataIn := rfl
@[simp] theorem busFaultDesync_gpioIn (s : State) : (busFaultDesync s).gpioIn = s.gpioIn := rfl
@[simp] theorem busFaultDesync_clockIn (s : State) : (busFaultDesync s).clockIn = s.clockIn := rfl
@[simp] theorem busFaultDesync_freeCount (s : State) : (busFaultDesync s).freeCount = s.freeCount := rfl
@[simp] theorem busFaultDesync_hostReads (s : State) : (busFaultDesync s).hostReads = s.hostReads := rfl

/-! ### `hostRead` -/

@[simp] theorem hostRead_phase (i : RegIndex) (s : State) : (hostRead i s).phase = s.phase := rfl
@[simp] theorem hostRead_curN (i : RegIndex) (s : State) : (hostRead i s).curN = s.curN := rfl
@[simp] theorem hostRead_bitCount (i : RegIndex) (s : State) : (hostRead i s).bitCount = s.bitCount := rfl
@[simp] theorem hostRead_trailCount (i : RegIndex) (s : State) : (hostRead i s).trailCount = s.trailCount := rfl
@[simp] theorem hostRead_shift (i : RegIndex) (s : State) : (hostRead i s).shift = s.shift := rfl
@[simp] theorem hostRead_tCmd (i : RegIndex) (s : State) : (hostRead i s).tCmd = s.tCmd := rfl
@[simp] theorem hostRead_tReady (i : RegIndex) (s : State) : (hostRead i s).tReady = s.tReady := rfl
@[simp] theorem hostRead_tConv (i : RegIndex) (s : State) : (hostRead i s).tConv = s.tConv := rfl
@[simp] theorem hostRead_result (i : RegIndex) (s : State) : (hostRead i s).result = s.result := rfl
@[simp] theorem hostRead_raw (i : RegIndex) (s : State) : (hostRead i s).raw = s.raw := rfl
@[simp] theorem hostRead_waitTime (i : RegIndex) (s : State) : (hostRead i s).waitTime = s.waitTime := rfl
@[simp] theorem hostRead_convTime (i : RegIndex) (s : State) : (hostRead i s).convTime = s.convTime := rfl
@[simp] theorem hostRead_totalTime (i : RegIndex) (s : State) : (hostRead i s).totalTime = s.totalTime := rfl
@[simp] theorem hostRead_code (i : RegIndex) (s : State) : (hostRead i s).code = s.code := rfl
@[simp] theorem hostRead_valid (i : RegIndex) (s : State) : (hostRead i s).valid = s.valid := rfl
@[simp] theorem hostRead_overrun (i : RegIndex) (s : State) : (hostRead i s).overrun = s.overrun := rfl
@[simp] theorem hostRead_desync (i : RegIndex) (s : State) : (hostRead i s).desync = s.desync := rfl
@[simp] theorem hostRead_latched (i : RegIndex) (s : State) : (hostRead i s).latched = s.latched := rfl
@[simp] theorem hostRead_smode (i : RegIndex) (s : State) : (hostRead i s).smode = s.smode := rfl
@[simp] theorem hostRead_clkOut (i : RegIndex) (s : State) : (hostRead i s).clkOut = s.clkOut := rfl
@[simp] theorem hostRead_ts (i : RegIndex) (s : State) : (hostRead i s).ts = s.ts := rfl
@[simp] theorem hostRead_trace (i : RegIndex) (s : State) : (hostRead i s).trace = s.trace := rfl
@[simp] theorem hostRead_clkDir (i : RegIndex) (s : State) : (hostRead i s).clkDir = s.clkDir := rfl
@[simp] theorem hostRead_dataDir (i : RegIndex) (s : State) : (hostRead i s).dataDir = s.dataDir := rfl
@[simp] theorem hostRead_params (i : RegIndex) (s : State) : (hostRead i s).params = s.params := rfl
@[simp] theorem hostRead_agenda (i : RegIndex) (s : State) : (hostRead i s).agenda = s.agenda := rfl
@[simp] theorem hostRead_dataIn (i : RegIndex) (s : State) : (hostRead i s).dataIn = s.dataIn := rfl
@[simp] theorem hostRead_gpioIn (i : RegIndex) (s : State) : (hostRead i s).gpioIn = s.gpioIn := rfl
@[simp] theorem hostRead_clockIn (i : RegIndex) (s : State) : (hostRead i s).clockIn = s.clockIn := rfl
@[simp] theorem hostRead_freeCount (i : RegIndex) (s : State) : (hostRead i s).freeCount = s.freeCount := rfl
@[simp] theorem hostRead_hostReads (i : RegIndex) (s : State) : (hostRead i s).hostReads = s.hostReads ++ [(i, regRead i s)] := rfl

/-! ### `updateModes` -/

@[simp] theorem updateModes_phase (s : State) : (updateModes s).phase = s.phase := rfl
@[simp] theorem updateModes_curN (s : State) : (updateModes s).curN = s.curN := rfl
@[simp] theorem updateModes_bitCount (s : State) : (updateModes s).bitCount = s.bitCount := rfl
@[simp] theorem updateModes_trailCount (s : State) : (updateModes s).trailCount = s.trailCount := rfl
@[simp] theorem updateModes_shift (s : State) : (updateModes s).shift = s.shift := rfl
@[simp] theorem updateModes_tCmd (s : State) : (updateModes s).tCmd = s.tCmd := rfl
@[simp] theorem updateModes_tReady (s : State) : (updateModes s).tReady = s.tReady := rfl
@[simp] theorem updateModes_tConv (s : State) : (updateModes s).tConv = s.tConv := rfl
@[simp] theorem updateModes_result (s : State) : (updateModes s).result = s.result := rfl
@[simp] theorem updateModes_raw (s : State) : (updateModes s).raw = s.raw := rfl
@[simp] theorem updateModes_waitTime (s : State) : (updateModes s).waitTime = s.waitTime := rfl
@[simp] theorem updateModes_convTime (s : State) : (updateModes s).convTime = s.convTime := rfl
@[simp] theorem updateModes_totalTime (s : State) : (updateModes s).totalTime = s.totalTime := rfl
@[simp] theorem updateModes_code (s : State) : (updateModes s).code = s.code := rfl
@[simp] theorem updateModes_valid (s : State) : (updateModes s).valid = s.valid := rfl
@[simp] theorem updateModes_overrun (s : State) : (updateModes s).overrun = s.overrun := rfl
@[simp] theorem updateModes_desync (s : State) : (updateModes s).desync = s.desync := rfl
@[simp] theorem updateModes_latched (s : State) : (updateModes s).latched = if s.desync then none else some s.curN := rfl
@[simp] theorem updateModes_smode (s : State) : (updateModes s).smode = s.latched := rfl
@[simp] theorem updateModes_clkOut (s : State) : (updateModes s).clkOut = s.clkOut := rfl
@[simp] theorem updateModes_ts (s : State) : (updateModes s).ts = s.ts := rfl
@[simp] theorem updateModes_trace (s : State) : (updateModes s).trace = s.trace := rfl
@[simp] theorem updateModes_clkDir (s : State) : (updateModes s).clkDir = s.clkDir := rfl
@[simp] theorem updateModes_dataDir (s : State) : (updateModes s).dataDir = s.dataDir := rfl
@[simp] theorem updateModes_params (s : State) : (updateModes s).params = s.params := rfl
@[simp] theorem updateModes_agenda (s : State) : (updateModes s).agenda = s.agenda := rfl
@[simp] theorem updateModes_dataIn (s : State) : (updateModes s).dataIn = s.dataIn := rfl
@[simp] theorem updateModes_gpioIn (s : State) : (updateModes s).gpioIn = s.gpioIn := rfl
@[simp] theorem updateModes_clockIn (s : State) : (updateModes s).clockIn = s.clockIn := rfl
@[simp] theorem updateModes_freeCount (s : State) : (updateModes s).freeCount = s.freeCount := rfl
@[simp] theorem updateModes_hostReads (s : State) : (updateModes s).hostReads = s.hostReads := rfl

/-! ### `writeResults` -/

@[simp] theorem writeResults_phase (t : Stamp) (s : State) : (writeResults t s).phase = s.phase := rfl
@[simp] theorem writeResults_curN (t : Stamp) (s : State) : (writeResults t s).curN = s.curN := rfl
@[simp] theorem writeResults_bitCount (t : Stamp) (s : State) : (writeResults t s).bitCount = s.bitCount := rfl
@[simp] theorem writeResults_trailCount (t : Stamp) (s : State) : (writeResults t s).trailCount = s.trailCount := rfl
@[simp] theorem writeResults_shift (t : Stamp) (s : State) : (writeResults t s).shift = s.shift := rfl
@[simp] theorem writeResults_tCmd (t : Stamp) (s : State) : (writeResults t s).tCmd = s.tCmd := rfl
@[simp] theorem writeResults_tReady (t : Stamp) (s : State) : (writeResults t s).tReady = s.tReady := rfl
@[simp] theorem writeResults_tConv (t : Stamp) (s : State) : (writeResults t s).tConv = s.tConv := rfl
@[simp] theorem writeResults_result (t : Stamp) (s : State) : (writeResults t s).result = sampleResult s.shift := rfl
@[simp] theorem writeResults_raw (t : Stamp) (s : State) : (writeResults t s).raw = sampleRaw s.shift := rfl
@[simp] theorem writeResults_waitTime (t : Stamp) (s : State) : (writeResults t s).waitTime = duration s.tReady s.tCmd := rfl
@[simp] theorem writeResults_convTime (t : Stamp) (s : State) : (writeResults t s).convTime = duration s.tConv s.tReady := rfl
@[simp] theorem writeResults_totalTime (t : Stamp) (s : State) : (writeResults t s).totalTime = duration t s.tCmd := rfl
@[simp] theorem writeResults_code (t : Stamp) (s : State) : (writeResults t s).code = s.code := rfl
@[simp] theorem writeResults_valid (t : Stamp) (s : State) : (writeResults t s).valid = s.valid := rfl
@[simp] theorem writeResults_overrun (t : Stamp) (s : State) : (writeResults t s).overrun = s.overrun := rfl
@[simp] theorem writeResults_desync (t : Stamp) (s : State) : (writeResults t s).desync = s.desync := rfl
@[simp] theorem writeResults_latched (t : Stamp) (s : State) : (writeResults t s).latched = s.latched := rfl
@[simp] theorem writeResults_smode (t : Stamp) (s : State) : (writeResults t s).smode = s.smode := rfl
@[simp] theorem writeResults_clkOut (t : Stamp) (s : State) : (writeResults t s).clkOut = s.clkOut := rfl
@[simp] theorem writeResults_ts (t : Stamp) (s : State) : (writeResults t s).ts = s.ts := rfl
@[simp] theorem writeResults_trace (t : Stamp) (s : State) : (writeResults t s).trace = s.trace := rfl
@[simp] theorem writeResults_clkDir (t : Stamp) (s : State) : (writeResults t s).clkDir = s.clkDir := rfl
@[simp] theorem writeResults_dataDir (t : Stamp) (s : State) : (writeResults t s).dataDir = s.dataDir := rfl
@[simp] theorem writeResults_params (t : Stamp) (s : State) : (writeResults t s).params = s.params := rfl
@[simp] theorem writeResults_agenda (t : Stamp) (s : State) : (writeResults t s).agenda = s.agenda := rfl
@[simp] theorem writeResults_dataIn (t : Stamp) (s : State) : (writeResults t s).dataIn = s.dataIn := rfl
@[simp] theorem writeResults_gpioIn (t : Stamp) (s : State) : (writeResults t s).gpioIn = s.gpioIn := rfl
@[simp] theorem writeResults_clockIn (t : Stamp) (s : State) : (writeResults t s).clockIn = s.clockIn := rfl
@[simp] theorem writeResults_freeCount (t : Stamp) (s : State) : (writeResults t s).freeCount = s.freeCount := rfl
@[simp] theorem writeResults_hostReads (t : Stamp) (s : State) : (writeResults t s).hostReads = s.hostReads := rfl

end Sys2Proof.Machine
end

