-- ==== Sys2Proof/Laws/Ops.lean ====
section
/-! SUPPORT. One lemma per shared operation that says once everything it can do; later proofs cite these. -/

namespace Sys2Proof.Machine

theorem legalPulses_iff (n : Nat) : legalPulses n = true ↔ n = 25 ∨ n = 26 ∨ n = 27 := by
  simp only [legalPulses, modeTable, List.any_cons, List.any_nil, Bool.or_false, Bool.or_eq_true, beq_iff_eq]
  omega

/-- `u` differs from `s` only where the pin primitives write. -/
def LinesOnly (s u : State) : Prop :=
  u = { s with clkOut := u.clkOut, trace := u.trace, dataIn := u.dataIn, gpioIn := u.gpioIn, freeCount := u.freeCount }

theorem LinesOnly.trans {s u v : State} (h : LinesOnly s u) (k : LinesOnly u v) : LinesOnly s v := by
  unfold LinesOnly at *; rw [k, h]

/-- What `PinWrite` does on each answer (R57). -/
theorem pinWrite_ok {b : Level} {s : State} (h : nextAnswer s = .ok) :
    pinWrite b s = (.ok, { s with clkOut := b, trace := s.trace ++ [.clkSet b], gpioIn := s.gpioIn.tail,
                                  freeCount := s.freeCount + 1 }) := by
  simp only [pinWrite, h]; rfl

theorem pinWrite_fault {b : Level} {s : State} (h : nextAnswer s = .fault) :
    pinWrite b s = (.fault, { s with clkOut := b, trace := s.trace ++ [.clkFault b], gpioIn := s.gpioIn.tail,
                                     freeCount := s.freeCount + 1 }) := by
  simp only [pinWrite, h]; rfl

/-- Whatever the answer, CLK is left at the level written and the answer's event ends the trace (R57). -/
theorem pinWrite_state (b : Level) (s : State) :
    (pinWrite b s).2 = { s with clkOut := b, trace := s.trace ++ [clkEvent b (nextAnswer s)],
                                gpioIn := s.gpioIn.tail, freeCount := s.freeCount + 1 } := rfl

@[simp] theorem pinWrite_answer (b : Level) (s : State) : (pinWrite b s).1 = nextAnswer s := rfl

/-- What `PinRead` does on each answer (R58). -/
theorem pinRead_ok {s : State} (h : nextAnswer s = .ok) :
    pinRead s = (some (nextLevel (takeAnswer s)),
      { s with trace := s.trace ++ [.sample (nextLevel (takeAnswer s))], gpioIn := s.gpioIn.tail,
               dataIn := s.dataIn.tail, freeCount := s.freeCount + 2 }) := by
  simp only [pinRead, h]; rfl

theorem pinRead_fault {s : State} (h : nextAnswer s = .fault) :
    pinRead s = (none, { s with trace := s.trace ++ [.sampleFault], gpioIn := s.gpioIn.tail,
                                freeCount := s.freeCount + 1 }) := by
  simp only [pinRead, h]; rfl

theorem answer_cases (a : Answer) : a = .ok ∨ a = .fault := by cases a <;> simp

/-- What `TsRead` answers and leaves (R85). -/
theorem tsRead_eq (s : State) :
    tsRead s = (s.ts + BitVec.ofNat 64 (nextTicks s),
      { s with ts := s.ts + BitVec.ofNat 64 (nextTicks s), clockIn := s.clockIn.tail, freeCount := s.freeCount + 1,
               trace := s.trace ++ [.ts (s.ts + BitVec.ofNat 64 (nextTicks s))] }) := rfl

theorem pinWrite_lines (b : Level) (s : State) : LinesOnly s (pinWrite b s).2 := rfl

theorem pinRead_lines (s : State) : LinesOnly s (pinRead s).2 := by
  obtain h | h := answer_cases (nextAnswer s)
  · rw [pinRead_ok h]; rfl
  · rw [pinRead_fault h]; rfl

theorem noSample_lines (s : State) : LinesOnly s (noSample s).2 := rfl

/-- `Pulse` moves nothing but the lines and ends with CLK low on every path (R59). -/
theorem pulse_lines {α : Type} {high : State → Option α × State} (hh : ∀ u, LinesOnly u (high u).2) (s : State) :
    LinesOnly s (pulse high s).2 ∧ (pulse high s).2.clkOut = false := by
  obtain h | h := answer_cases (nextAnswer s)
  · have h1 := pinWrite_lines true s
    simp only [pulse, pinWrite_ok h] at h1 ⊢
    generalize { s with clkOut := true, trace := s.trace ++ [Event.clkSet true], gpioIn := s.gpioIn.tail,
                        freeCount := s.freeCount + 1 } = s1 at h1 ⊢
    have h2 := hh s1
    rcases hm : high s1 with ⟨_ | d, s2⟩ <;> simp only [hm] at h2 ⊢
    · exact ⟨(h1.trans h2).trans (pinWrite_lines false s2), rfl⟩
    · obtain k | k := answer_cases (nextAnswer s2)
      · have h3 := pinWrite_lines false s2
        simp only [pinWrite_ok k] at h3 ⊢
        exact ⟨(h1.trans h2).trans h3, trivial⟩
      · have h3 := pinWrite_lines false s2
        simp only [pinWrite_fault k] at h3 ⊢
        exact ⟨(h1.trans h2).trans h3, trivial⟩
  · have h1 := pinWrite_lines true s
    simp only [pulse, pinWrite_fault h] at h1 ⊢
    exact ⟨h1.trans (pinWrite_lines false _), rfl⟩

/-- A data pulse with every answer `ok` (R59). -/
theorem pulse_pinRead_ok {s : State} (h1 : nextAnswer s = .ok) (h2 : nextAnswer (takeAnswer s) = .ok)
    (h3 : nextAnswer (takeLevel (takeAnswer (takeAnswer s))) = .ok) :
    pulse pinRead s = (some (nextLevel (takeAnswer (takeAnswer s))),
      { s with clkOut := false, trace := s.trace ++ dataPulseEvents (nextLevel (takeAnswer (takeAnswer s))),
               gpioIn := s.gpioIn.tail.tail.tail, dataIn := s.dataIn.tail, freeCount := s.freeCount + 4 }) := by
  simp only [pulse, pinWrite_ok h1]
  rw [pinRead_ok (by exact h2)]
  dsimp only
  rw [pinWrite_ok (by exact h3)]
  simp [dataPulseEvents, nextLevel, takeAnswer]

/-- A trailing pulse with both answers `ok` (R59). -/
theorem pulse_noSample_ok {s : State} (h1 : nextAnswer s = .ok) (h2 : nextAnswer (takeAnswer s) = .ok) :
    pulse noSample s = (some (),
      { s with clkOut := false, trace := s.trace ++ trailPulseEvents,
               gpioIn := s.gpioIn.tail.tail, freeCount := s.freeCount + 2 }) := by
  simp only [pulse, pinWrite_ok h1, noSample]
  rw [pinWrite_ok (by exact h2)]
  simp [trailPulseEvents]

end Sys2Proof.Machine
end

