-- ==== Sys2Proof/Laws/Engine.lean ====
section
/-! SUPPORT. What acceptance, each engine step and reset can do, said once. -/

namespace Sys2Proof.Machine

/-- Acceptance with CLK driven low (R64). -/
theorem accept_ok {n : Nat} {s : State} (h : nextAnswer (clockStep s) = .ok) :
    accept n s = { s with
      curN := BitVec.ofNat 5 n, bitCount := 0, trailCount := 0, shift := 0
      tCmd := s.ts + BitVec.ofNat 64 (nextTicks s), ts := s.ts + BitVec.ofNat 64 (nextTicks s)
      phase := .wait, clkOut := false
      trace := s.trace ++ [.ts (s.ts + BitVec.ofNat 64 (nextTicks s)), .clkSet false]
      gpioIn := s.gpioIn.tail, clockIn := s.clockIn.tail, freeCount := s.freeCount + 2 } := by
  simp only [accept, tsRead_eq]
  rw [pinWrite_ok (by exact h)]
  simp [acceptFields, nextTicks]

/-- Acceptance with the CLK write refused (R64, R100). -/
theorem accept_fault {n : Nat} {s : State} (h : nextAnswer (clockStep s) = .fault) :
    accept n s = { s with
      curN := BitVec.ofNat 5 n, bitCount := 0, trailCount := 0, shift := 0
      tCmd := s.ts + BitVec.ofNat 64 (nextTicks s), ts := s.ts + BitVec.ofNat 64 (nextTicks s)
      phase := .idle, code := .busFault, valid := true, desync := true, latched := none, clkOut := false
      trace := s.trace ++ [.ts (s.ts + BitVec.ofNat 64 (nextTicks s)), .clkFault false]
      gpioIn := s.gpioIn.tail, clockIn := s.clockIn.tail, freeCount := s.freeCount + 2 } := by
  simp only [accept, tsRead_eq]
  rw [pinWrite_fault (by exact h)]
  simp [acceptFields, nextTicks, busFaultDesync, complete]

/-- The state a WAIT poll with sample `d` and timestamp `t` leaves before it judges them. -/
def polled (d : Level) (t : Stamp) (s : State) : State :=
  { s with ts := t, trace := s.trace ++ [.sample d, .ts t], gpioIn := s.gpioIn.tail, dataIn := s.dataIn.tail,
           clockIn := s.clockIn.tail, freeCount := s.freeCount + 3 }

/-- The timestamp a WAIT poll reads. -/
def pollStamp (s : State) : Stamp := s.ts + BitVec.ofNat 64 (nextTicks (takeLevel (takeAnswer s)))

theorem waitStep_fault {s : State} (h : nextAnswer s = .fault) :
    waitStep s = { s with phase := .idle, code := .busFault, valid := true
                          trace := s.trace ++ [.sampleFault], gpioIn := s.gpioIn.tail, freeCount := s.freeCount + 1 } := by
  simp only [waitStep, pinRead_fault h]; rfl

/-- A WAIT poll the platform does not refuse (R65). -/
theorem waitStep_ok {s : State} (h : nextAnswer s = .ok) :
    waitStep s =
      if nextLevel (takeAnswer s) = false then
        { polled (nextLevel (takeAnswer s)) (pollStamp s) s with tReady := pollStamp s, phase := .shift }
      else if s.params.waitTimeout.val ≤ (pollStamp s - s.tCmd).toNat then
        complete .timeout (polled (nextLevel (takeAnswer s)) (pollStamp s) s)
      else polled (nextLevel (takeAnswer s)) (pollStamp s) s := by
  simp only [waitStep, pinRead_ok h, tsRead_eq, polled, pollStamp, List.append_assoc, List.cons_append, List.nil_append]
  rfl

/-- Everything a WAIT poll can do (R65). -/
theorem waitStep_cases (s : State) :
    waitStep s = { s with phase := .idle, code := .busFault, valid := true
                          trace := s.trace ++ [.sampleFault], gpioIn := s.gpioIn.tail, freeCount := s.freeCount + 1 } ∨
    waitStep s = { polled false (pollStamp s) s with tReady := pollStamp s, phase := .shift } ∨
    (s.params.waitTimeout.val ≤ (pollStamp s - s.tCmd).toNat ∧ waitStep s = complete .timeout (polled true (pollStamp s) s)) ∨
    ((pollStamp s - s.tCmd).toNat < s.params.waitTimeout.val ∧ waitStep s = polled true (pollStamp s) s) := by
  obtain h | h := answer_cases (nextAnswer s)
  · right
    rw [waitStep_ok h]
    cases nextLevel (takeAnswer s)
    · exact .inl (if_pos rfl)
    · right
      rw [if_neg (by decide)]
      by_cases k : s.params.waitTimeout.val ≤ (pollStamp s - s.tCmd).toNat
      · exact .inl ⟨k, if_pos k⟩
      · exact .inr ⟨by omega, if_neg k⟩
  · exact .inl (waitStep_fault h)

/-- Everything a SHIFT step can do: a bus fault, the last bit, or another bit; `u` is the state its pulse leaves (R67, R100). -/
theorem shiftStep_cases (s : State) : ∃ u, LinesOnly s u ∧ u.clkOut = false ∧
    (shiftStep s = busFaultDesync u ∨
      ∃ d, (s.bitCount + 1 = 24 ∧
          shiftStep s = { u with shift := shiftIn s.shift d, bitCount := s.bitCount + 1, trailCount := 0, phase := .trail }) ∨
        (s.bitCount + 1 ≠ 24 ∧
          shiftStep s = { u with shift := shiftIn s.shift d, bitCount := s.bitCount + 1 })) := by
  obtain ⟨hl, hc⟩ := pulse_lines pinRead_lines s
  unfold shiftStep
  rcases hp : pulse pinRead s with ⟨_ | d, u⟩ <;> simp only [hp] at hl hc ⊢
  · exact ⟨u, hl, hc, .inl rfl⟩
  · have hb : u.bitCount = s.bitCount := by rw [hl]
    have hs : u.shift = s.shift := by rw [hl]
    refine ⟨u, hl, hc, .inr ⟨d, ?_⟩⟩
    rw [hb, hs]
    by_cases k : s.bitCount + 1 = 24
    · exact .inl ⟨k, if_pos k⟩
    · exact .inr ⟨k, if_neg k⟩

/-- `Finish()` writes the results, the modes and the completion (R73, R74). -/
theorem finish_eq (s : State) :
    finish s = { s with
      raw := sampleRaw s.shift, result := sampleResult s.shift
      waitTime := duration s.tReady s.tCmd, convTime := duration s.tConv s.tReady
      totalTime := duration (s.ts + BitVec.ofNat 64 (nextTicks s)) s.tCmd
      smode := s.latched, latched := if s.desync then none else some s.curN
      code := .ok, valid := true, phase := .idle
      ts := s.ts + BitVec.ofNat 64 (nextTicks s), clockIn := s.clockIn.tail, freeCount := s.freeCount + 1
      trace := s.trace ++ [.ts (s.ts + BitVec.ofNat 64 (nextTicks s))] } := by
  simp only [finish, tsRead_eq, complete, updateModes, writeResults]
  rfl

/-- The last trailing pulse takes `t_conv` (R70). -/
theorem takeConv_eq (u : State) :
    takeConv u = { u with
      tConv := u.ts + BitVec.ofNat 64 (nextTicks u), ts := u.ts + BitVec.ofNat 64 (nextTicks u)
      clockIn := u.clockIn.tail, freeCount := u.freeCount + 1
      trace := u.trace ++ [.ts (u.ts + BitVec.ofNat 64 (nextTicks u))] } := by
  simp only [takeConv, tsRead_eq]

/-- Everything a TRAIL step can do: a bus fault, another pulse, or the last (R70, R100). -/
theorem trailStep_cases (s : State) : ∃ u, LinesOnly s u ∧ u.clkOut = false ∧
    (trailStep s = busFaultDesync u ∨
      (s.trailCount + 1 ≠ s.curN.toNat - 24 ∧ trailStep s = { u with trailCount := s.trailCount + 1 }) ∨
      (s.trailCount + 1 = s.curN.toNat - 24 ∧ trailStep s = finish (takeConv { u with trailCount := s.trailCount + 1 }))) := by
  obtain ⟨hl, hc⟩ := pulse_lines noSample_lines s
  unfold trailStep
  rcases hp : pulse noSample s with ⟨_ | _, u⟩ <;> simp only [hp] at hl hc ⊢
  · exact ⟨u, hl, hc, .inl rfl⟩
  · have hb : u.trailCount = s.trailCount := by rw [hl]
    have hs : u.curN = s.curN := by rw [hl]
    refine ⟨u, hl, hc, .inr ?_⟩
    rw [hb, hs]
    by_cases k : s.trailCount + 1 = s.curN.toNat - 24
    · exact .inr ⟨k, if_pos k⟩
    · exact .inl ⟨k, if_neg k⟩

/-- What a reset leaves (R112, R113). -/
theorem doReset_eq (k : ResetKind) (s : State) :
    doReset k s = { State.reset with
      params := s.params, agenda := s.agenda, dataIn := s.dataIn, hostReads := s.hostReads, clockIn := s.clockIn
      gpioIn := s.gpioIn.tail, freeCount := s.freeCount + 2, ts := Config.freeStamp s.freeCount
      trace := [.reset k, clkEvent false (nextAnswer { s with freeCount := s.freeCount + 1 })]
      desync := desyncAfterReset k s } := rfl

/-- What no engine step changes, and what it changes only by completing. -/
structure EngineKeeps (s t : State) : Prop where
  params    : t.params = s.params
  agenda    : t.agenda = s.agenda
  hostReads : t.hostReads = s.hostReads
  clkDir    : t.clkDir = s.clkDir
  dataDir   : t.dataDir = s.dataDir
  overrun   : t.overrun = s.overrun
  curN      : t.curN = s.curN
  tCmd      : t.tCmd = s.tCmd
  busyCode  : t.phase ≠ .idle → t.code = s.code ∧ t.valid = s.valid
  busyModes : t.phase ≠ .idle → t.desync = s.desync ∧ t.latched = s.latched ∧ t.smode = s.smode
  doneValid : t.phase = .idle → t.valid = true
  desync    : s.desync = true → t.desync = true

theorem waitStep_keeps {s : State} (h : s.phase = .wait) : EngineKeeps s (waitStep s) := by
  obtain e | e | ⟨_, e⟩ | ⟨_, e⟩ := waitStep_cases s <;> rw [e] <;> constructor <;> simp [polled, h]

theorem shiftStep_keeps {s : State} (h : s.phase = .shift) : EngineKeeps s (shiftStep s) := by
  obtain ⟨u, hl, -, e | ⟨d, ⟨-, e⟩ | ⟨-, e⟩⟩⟩ := shiftStep_cases s <;> rw [e, hl] <;> constructor <;> simp [h]

theorem trailStep_keeps {s : State} (h : s.phase = .trail) : EngineKeeps s (trailStep s) := by
  obtain ⟨u, hl, -, e | ⟨-, e⟩ | ⟨-, e⟩⟩ := trailStep_cases s
  · rw [e, hl]; constructor <;> simp
  · rw [e, hl]; constructor <;> simp [h]
  · rw [e, finish_eq, takeConv_eq, hl]; constructor <;> simp

/-- Every engine step of a READ in flight keeps what `EngineKeeps` lists. -/
theorem engineStep_keeps {s : State} (h : s.phase ≠ .idle) : EngineKeeps s (engineStep s) := by
  unfold engineStep
  split
  · contradiction
  · exact waitStep_keeps ‹_›
  · exact shiftStep_keeps ‹_›
  · exact trailStep_keeps ‹_›

end Sys2Proof.Machine
end

