-- ==== Sys2Proof/Laws/Commands.lean ====
section
/-! SUPPORT. Everything a command can do in the step of the CMD write: complete with a result, complete with an error code, or
be accepted as a READ (`20_memory.md` R37). -/

namespace Sys2Proof.Machine

theorem encodeOutcome_error {ch : Channel} {x : BitVec 2} {g : GainField} {c : Code}
    (h : encodeOutcome ch x g = .error c) : c = .invalidMode ∨ c = .invalidArgument := by
  unfold encodeOutcome at h
  split at h
  · simp only [Except.error.injEq] at h; exact .inr h.symm
  · split at h
    · simp at h
    · simp only [Except.error.injEq] at h; exact .inl h.symm

theorem decodeOutcome_error {n : Nat} {c : Code} (h : decodeOutcome n = .error c) : c = .invalidMode := by
  unfold decodeOutcome at h
  split at h
  · simp at h
  · simp only [Except.error.injEq] at h; exact h.symm

/-- What acceptance leaves, the platform's answer apart: `u` differs from `s` in the fields listed, and then WAIT is entered or
the bus fault completes the READ (R64, R100). -/
theorem accept_cases (n : Nat) (s : State) : ∃ tr, ∃ u,
    u = { s with
      curN := BitVec.ofNat 5 n, bitCount := 0, trailCount := 0, shift := 0
      tCmd := s.ts + BitVec.ofNat 64 (nextTicks s), ts := s.ts + BitVec.ofNat 64 (nextTicks s)
      clkOut := false, trace := tr
      gpioIn := s.gpioIn.tail, clockIn := s.clockIn.tail, freeCount := s.freeCount + 2 } ∧
    (accept n s = { u with phase := .wait } ∨ accept n s = busFaultDesync u) := by
  obtain h | h := answer_cases (nextAnswer (clockStep s))
  · rw [accept_ok h]
    exact ⟨_, _, rfl, .inl rfl⟩
  · rw [accept_fault h]
    exact ⟨_, _, rfl, .inr rfl⟩

/-- The ways a command leaves a state (R37). -/
inductive CommandCase (s t : State) : Prop
  | done (v : Word) (h : t = complete .ok { s with result := v })
  | failed (c : Code) (hc : c = .invalidMode ∨ c = .invalidArgument) (h : t = complete c s)
  | accepted (n : Nat) (hn : legalPulses n = true) (h : t = accept n s)

theorem exec_cases {i : Instr} {s t : State} (h : exec i s = .next t) : CommandCase s t := by
  cases i with
  | read n =>
    simp only [exec, execRead, Host.Outcome.next.injEq] at h
    split at h
    · exact .accepted n ‹_› h.symm
    · exact .failed _ (.inl rfl) h.symm
  | encode ch x g =>
    simp only [exec, execEncode, Host.Outcome.next.injEq] at h
    cases hr : encodeOutcome ch x g with
    | ok v => rw [hr] at h; exact .done v h.symm
    | error c => rw [hr] at h; exact .failed c (encodeOutcome_error hr) h.symm
  | decode n =>
    simp only [exec, execDecode, Host.Outcome.next.injEq] at h
    cases hr : decodeOutcome n with
    | ok v => rw [hr] at h; exact .done v h.symm
    | error c => rw [hr] at h; exact .failed c (.inl (decodeOutcome_error hr)) h.symm

end Sys2Proof.Machine
end

