-- ==== Sys2Proof/Laws/PerInstr.lean ====
section
/-! SUPPORT. The family `Encoding`: what the word of every command shows (`30_encoding.md` R47, R48). -/

namespace Sys2Proof.Laws.Encoding

/-- The word of `i` has RSV = 0, OP the command's opcode and ARG its operand. -/
def Statement (i : Instr) : Prop :=
  rsvField (encode i) = 0 ∧ opField (encode i) = i.opcode ∧ argField (encode i) = i.arg

theorem fields_of_concat : ∀ (o : BitVec 3) (a : BitVec 5),
    rsvField (0#24 ++ o ++ a) = 0 ∧ opField (0#24 ++ o ++ a) = o ∧ argField (0#24 ++ o ++ a) = a := by
  decide

theorem read (n : Nat) : Statement (.read n) := fields_of_concat _ _

theorem encode (ch : Channel) (x : BitVec 2) (g : GainField) : Statement (.encode ch x g) := fields_of_concat _ _

theorem decode (n : Nat) : Statement (.decode n) := fields_of_concat _ _

end Sys2Proof.Laws.Encoding
end

