-- ==== Sys2Proof/Laws/Step.lean ====
section
/-! SUPPORT. Everything a step that answers a next state can have been: the inversion the statements about all steps go through. -/

namespace Sys2Proof.Machine

theorem busy_iff (s : State) : s.busy = true ↔ s.phase ≠ .idle := by simp [State.busy]

theorem busy_false_iff (s : State) : s.busy = false ↔ s.phase = .idle := by simp [State.busy]

/-- The ways a step takes a next state, `s'` being `s` with the move taken off the agenda. -/
inductive StepCase (s t : State) : Prop
  | engine (turn : EngineTurn s) (h : t = engineStep { s with agenda := s.agenda.tail })
  | clockDefault (idle : s.phase = .idle) (ha : s.agenda = []) (h : t = clockStep s)
  | regRead (idx : RegIndex) (rest : List Move) (ha : s.agenda = .regRead idx :: rest)
      (h : t = hostRead idx { s with agenda := rest })
  | writeIgnored (idx : RegIndex) (v : Word) (rest : List Move) (ha : s.agenda = .regWrite idx v :: rest)
      (hi : idx ≠ 0) (h : t = { s with agenda := rest })
  | writeBusy (v : Word) (rest : List Move) (ha : s.agenda = .regWrite 0 v :: rest)
      (busy : s.phase ≠ .idle) (h : t = { s with agenda := rest, overrun := true })
  | writeRejected (v : Word) (e : DecodeError) (rest : List Move) (ha : s.agenda = .regWrite 0 v :: rest)
      (idle : s.phase = .idle) (hd : decode v = .error e) (h : t = complete .invalidArgument { s with agenda := rest })
  | command (v : Word) (i : Instr) (rest : List Move) (ha : s.agenda = .regWrite 0 v :: rest)
      (idle : s.phase = .idle) (hd : decode v = .ok i) (h : exec i { s with agenda := rest } = .next t)
  | waitIdleBusy (rest : List Move) (ha : s.agenda = .waitIdle :: rest) (busy : s.phase ≠ .idle)
      (h : t = { hostRead 1 { s with agenda := rest } with agenda := .engine :: .waitIdle :: rest })
  | waitIdleDone (rest : List Move) (ha : s.agenda = .waitIdle :: rest) (idle : s.phase = .idle)
      (h : t = hostRead 1 { s with agenda := rest })
  | clock (k : Nat) (rest : List Move) (ha : s.agenda = .clock k :: rest) (h : t = clockAdvance k { s with agenda := rest })
  | reset (k : ResetKind) (rest : List Move) (ha : s.agenda = .reset k :: rest) (h : t = doReset k { s with agenda := rest })

theorem step_pinsOk {s : State} (h : s.params.pinsOk = true) :
    step s = match s.agenda with
      | [] => .next (defaultMove s)
      | m :: rest => perform m { s with agenda := rest } := by
  unfold step
  exact if_pos h

/-- A step on the Engine's turn is the step of its phase (R65, R67, R70). -/
theorem step_engineTurn {s : State} (h : EngineTurn s) :
    step s = .next (engineStep { s with agenda := s.agenda.tail }) := by
  obtain ⟨hp, hb, ha⟩ := h
  rw [step_pinsOk hp]
  rcases hs : s.agenda with _ | ⟨m, rest⟩
  · simp only [defaultMove, (busy_iff s).2 hb, if_true, List.tail_nil]
    rw [← hs]
  · rw [hs] at ha
    obtain h | h := ha
    · simp at h
    · simp only [List.head?_cons, Option.some.injEq] at h
      subst h
      have : State.busy { s with agenda := rest } = true := (busy_iff _).2 hb
      simp only [perform, this, if_true, List.tail_cons]

theorem step_cases {s t : State} (h : step s = .next t) : s.params.pinsOk = true ∧ StepCase s t := by
  by_cases hp : s.params.pinsOk = true
  swap
  · simp [step, hp] at h
  refine ⟨hp, ?_⟩
  by_cases turn : EngineTurn s
  · rw [step_engineTurn turn] at h
    exact .engine turn (by simpa using h.symm)
  rw [step_pinsOk hp] at h
  rcases hs : s.agenda with _ | ⟨m, rest⟩ <;> simp only [hs] at h
  · have hi : s.phase = .idle := by
      by_contra hb
      exact turn ⟨hp, hb, .inl hs⟩
    simp only [defaultMove, (busy_false_iff s).2 hi, Bool.false_eq_true, if_false, Host.Outcome.next.injEq] at h
    exact .clockDefault hi hs h.symm
  · cases m with
    | regRead idx =>
      simp only [perform, Host.Outcome.next.injEq] at h
      exact .regRead idx rest hs h.symm
    | regWrite idx v =>
      simp only [perform, regWrite] at h
      split at h
      · rename_i hi
        simp only [Host.Outcome.next.injEq] at h
        exact .writeIgnored idx v rest hs hi h.symm
      · rename_i hi
        obtain rfl : idx = 0 := by simpa using hi
        split at h
        · rename_i hb
          simp only [Host.Outcome.next.injEq] at h
          exact .writeBusy v rest hs ((busy_iff _).1 hb) h.symm
        · rename_i hb
          have hi : s.phase = .idle := (busy_false_iff { s with agenda := rest }).1 (by simpa using hb)
          simp only [dispatch] at h
          split at h
          · rename_i i hd
            exact .command v i rest hs hi hd h
          · rename_i e hd
            simp only [Host.Outcome.next.injEq] at h
            exact .writeRejected v e rest hs hi hd h.symm
    | waitIdle =>
      simp only [perform, waitIdleStep, Host.Outcome.next.injEq] at h
      split at h
      · rename_i hb
        exact .waitIdleBusy rest hs ((busy_iff _).1 hb) h.symm
      · rename_i hb
        exact .waitIdleDone rest hs ((busy_false_iff { s with agenda := rest }).1 (by simpa using hb)) h.symm
    | engine =>
      have hi : s.phase = .idle := by
        by_contra hb
        exact turn ⟨hp, hb, .inr (by rw [hs]; rfl)⟩
      have : State.busy { s with agenda := rest } = false := (busy_false_iff _).2 hi
      simp [perform, this] at h
    | clock k =>
      simp only [perform, Host.Outcome.next.injEq] at h
      exact .clock k rest hs h.symm
    | reset k =>
      simp only [perform, Host.Outcome.next.injEq] at h
      exact .reset k rest hs h.symm

@[simp] theorem runSteps_zero (s : State) : runSteps 0 s = .next s := rfl

/-- A run goes on from the state its first step answers. -/
theorem runSteps_next (k : Nat) {s t : State} (h : step s = .next t) : runSteps (k + 1) s = runSteps k t := by
  have h' : Sys2Proof.core.step s = .next t := h
  simp only [runSteps, Host.Core.run, h']
  rfl

/-- With nothing on the agenda and a command in flight, a run goes on with the Engine's step. -/
theorem runSteps_engine (k : Nat) {s : State} (hp : s.params.pinsOk = true) (ha : s.agenda = []) (hb : s.phase ≠ .idle) :
    runSteps (k + 1) s = runSteps k (engineStep s) := by
  refine runSteps_next k ?_
  rw [step_engineTurn ⟨hp, hb, .inl ha⟩, ha, List.tail_nil, ← ha]

/-- A run is over where the agenda lists no move of the Host and the engine is IDLE (R9). -/
theorem runOver_iff (s : State) : s.runOver = true ↔ (∀ m ∈ s.agenda, m.isHost = false) ∧ s.phase = .idle := by
  simp [State.runOver, State.busy]

/-- A run that is over takes no more steps. -/
theorem runProgram_over (k : Nat) {s : State} (h : s.runOver = true) : runProgram k s = some (.next s) := by
  cases k <;> simp [runProgram, h]

/-- A run that is not over goes on from the state its next step answers. -/
theorem runProgram_next (k : Nat) {s t : State} (hn : s.runOver = false) (h : step s = .next t) :
    runProgram (k + 1) s = runProgram k t := by
  simp [runProgram, hn, h]

/-- Every command answers a next state, whatever its operands and the state (R8). -/
theorem exec_next (i : Instr) (s : State) : ∃ t, exec i s = .next t := by
  cases i <;> exact ⟨_, rfl⟩

theorem dispatch_next (v : Word) (s : State) : ∃ t, dispatch v s = .next t := by
  unfold dispatch
  cases decode v with
  | ok i => exact exec_next i s
  | error e => exact ⟨_, rfl⟩

theorem regWrite_next (idx : RegIndex) (v : Word) (s : State) : ∃ t, regWrite idx v s = .next t := by
  unfold regWrite
  split
  · exact ⟨_, rfl⟩
  · split
    · exact ⟨_, rfl⟩
    · exact dispatch_next v s

/-- A move answers a next state, or it is the Engine's and the Engine is IDLE (R8). -/
theorem perform_next (m : Move) (s : State) :
    (∃ t, perform m s = .next t) ∨
      (m = .engine ∧ s.phase = .idle ∧ perform m s = .fault .engineNotEnabled) := by
  cases m with
  | regWrite idx v => exact .inl (regWrite_next idx v s)
  | engine =>
    cases hb : s.busy
    · exact .inr ⟨rfl, (busy_false_iff s).1 hb, by simp [perform, hb]⟩
    · exact .inl ⟨engineStep s, by simp [perform, hb]⟩
  | _ => exact .inl ⟨_, rfl⟩

end Sys2Proof.Machine
end

