-- ==== Sys2Proof/Laws/ReadCycle.lean ====
section
/-! SUPPORT. The engine's steps where every answer is `ok`, for the statements about a whole READ. -/

namespace Sys2Proof.Machine

theorem engineStep_wait {s : State} (h : s.phase = .wait) : engineStep s = waitStep s := by simp only [engineStep, h]

theorem engineStep_shift {s : State} (h : s.phase = .shift) : engineStep s = shiftStep s := by simp only [engineStep, h]

theorem engineStep_trail {s : State} (h : s.phase = .trail) : engineStep s = trailStep s := by simp only [engineStep, h]

/-- The next answer is `ok` where at least one is promised. -/
theorem OkAnswers.head {k : Nat} {s : State} (h : OkAnswers (k + 1) s) : nextAnswer s = .ok := by
  obtain h | ⟨t, h⟩ := h
  · simp [nextAnswer, h]
  · unfold nextAnswer; rw [← h]; simp [List.replicate_succ]

/-- One primitive uses one promised answer up. -/
theorem OkAnswers.tail {k : Nat} {s u : State} (h : OkAnswers (k + 1) s) (hp : u.params = s.params)
    (hg : u.gpioIn = s.gpioIn.tail) : OkAnswers k u := by
  obtain h | ⟨t, h⟩ := h
  · exact .inl (by rw [hp]; exact h)
  · exact .inr ⟨t, by rw [hg, ← h]; simp [List.replicate_succ]⟩

theorem OkAnswers.mono {k j : Nat} {s : State} (h : k ≤ j) (hg : OkAnswers j s) : OkAnswers k s := by
  obtain h' | ⟨t, h'⟩ := hg
  · exact .inl h'
  · exact .inr ⟨List.replicate (j - k) .ok ++ t, by
      rw [← h', ← List.append_assoc, List.replicate_append_replicate, Nat.add_sub_cancel' h]⟩

theorem OkAnswers.drop {k j : Nat} {s u : State} (h : OkAnswers (k + j) s) (hp : u.params = s.params)
    (hg : u.gpioIn = s.gpioIn.drop j) : OkAnswers k u := by
  induction j generalizing s with
  | zero => exact h.imp (fun h => by rw [hp]; exact h) (fun h => by rw [hg]; exact h)
  | succ j ih =>
    refine ih (s := { s with gpioIn := s.gpioIn.tail }) (OkAnswers.tail (k := k + j) h rfl rfl) hp ?_
    rw [hg]; simp

/-- The state a data pulse that samples `d` leaves (R67). -/
def shifted (d : Level) (s : State) : State :=
  { s with clkOut := false, trace := s.trace ++ dataPulseEvents d, gpioIn := s.gpioIn.drop 3, dataIn := s.dataIn.tail
           freeCount := s.freeCount + 4, shift := shiftIn s.shift d, bitCount := s.bitCount + 1 }

theorem shiftStep_ok {s : State} {d : Level} {ds : List Level} (h : OkAnswers 3 s) (hd : s.dataIn = d :: ds) :
    shiftStep s =
      if s.bitCount + 1 = 24 then { shifted d s with trailCount := 0, phase := .trail } else shifted d s := by
  have h2 : OkAnswers 2 (takeAnswer s) := h.tail rfl rfl
  have h3 : OkAnswers 1 (takeLevel (takeAnswer (takeAnswer s))) := h2.tail rfl rfl
  have e : nextLevel (takeAnswer (takeAnswer s)) = d := by simp [nextLevel, hd]
  unfold shiftStep
  rw [pulse_pinRead_ok h.head h2.head h3.head, e]
  dsimp only
  split <;> simp [shifted, ← List.drop_one, List.drop_drop]

/-- The state a trailing pulse leaves (R70). -/
def trailed (s : State) : State :=
  { s with trailCount := s.trailCount + 1, clkOut := false, trace := s.trace ++ trailPulseEvents
           gpioIn := s.gpioIn.drop 2, freeCount := s.freeCount + 2 }

theorem trailStep_ok {s : State} (h : OkAnswers 2 s) :
    trailStep s =
      if s.trailCount + 1 = s.curN.toNat - 24 then finish (takeConv (trailed s)) else trailed s := by
  have h2 : OkAnswers 1 (takeAnswer s) := h.tail rfl rfl
  unfold trailStep
  rw [pulse_noSample_ok h.head h2.head]
  dsimp only
  split <;> simp [trailed, ← List.drop_one, List.drop_drop]

end Sys2Proof.Machine
end

