-- ==== Sys2Proof/Tests/Slice0.lean ====
section
/-! SUPPORT. The model's own tests, with expected results from `95_test_vectors.md` and the rules named, and one witness for the
hypotheses of every statement that has some. -/

namespace Sys2Proof.Tests

open Sys2Proof Sys2Proof.Machine

/-! ## Well-formedness: each check refuses an ill-formed term -/

theorem test_wf_read : (Instr.read 31).wf = true ∧ (Instr.read 32).wf = false := by decide
theorem test_wf_decode : (Instr.decode 31).wf = true ∧ (Instr.decode 32).wf = false := by decide
theorem test_wf_asm : (Asm.read 32).wf = false ∧ (Asm.decode 32).wf = false ∧ (Asm.encodeRaw 32).wf = false := by decide

/-! ## Decoding: words written from the tables of R47–R50, field by field -/

theorem test_decode_read : decode (0#24 ++ 0b001#3 ++ 0b11001#5) = .ok (.read 25) := by decide
theorem test_decode_encode : decode (0#24 ++ 0b010#3 ++ (0b1#1 ++ 0b00#2 ++ 0b10#2)) = .ok (.encode .B 0 .g32) := by decide
theorem test_decode_decode : decode (0#24 ++ 0b011#3 ++ 0b11011#5) = .ok (.decode 27) := by decide
/-- Rows of L2.2: reserved OP, RSV bit 31, and RSV checked before OP. -/
theorem test_decode_rejects :
    decode 0x00000019#32 = .error .reservedOpcode ∧ decode 0x000000F9#32 = .error .reservedOpcode ∧
    decode 0x80000039#32 = .error .reservedBits ∧ decode 0xFFFFFFFF#32 = .error .reservedBits := by decide
theorem test_table_word : decodeTableWord 32 0x40 = some (.encode .A 0 .g128) ∧ decodeTableWord 32 0 = none := by decide
/-- R53, R54. -/
theorem test_assemble :
    (Asm.encode .B .g32).assemble = some 0x52#32 ∧ Asm.readA64.assemble = some 0x3B#32 ∧ (Asm.read 32).assemble = none := by
  decide

/-- The first four statements of P1 (L3.1). -/
theorem test_host_program :
    [HostStmt.wr (.name .cmd) .readA128, .rd (.name .status), .waitIdle, .rd (.name .totalTime)].map hostMove =
      [some (.regWrite 0 0x39), some (.regRead 1), some .waitIdle, some (.regRead 6)] := by decide

/-- R55: a host program that asks for the mode of 26 pulses. -/
def decodeProgram : List HostStmt := [.wr (.name .cmd) (.decode 26), .waitIdle, .rd (.name .result)]

/-! ## States to test on -/

/-- `WAIT_TIMEOUT` = 100, the rest as State.reset has it. -/
def params : Params := { Config.params with waitTimeout := 100 }

/-- IDLE right after reset, with `ts` = 0 and every answer of the platform `ok` for a while. -/
def idle : State := { State.reset with params := params, ts := 0, gpioIn := List.replicate 8 .ok, clockIn := [1000, 50] }

/-- In WAIT since `t_cmd` = 1000; the next poll samples `d` and reads the timestamp `t`. -/
def waiting (d : Level) (t : Nat) : State :=
  { idle with phase := .wait, curN := 25, tCmd := 1000, ts := 1000, dataIn := [d], clockIn := [t - 1000] }

/-- In SHIFT after `k` bits, all 0; the next sample is 1. -/
def shifting (k : Nat) : State := { idle with phase := .shift, curN := 25, bitCount := k, dataIn := [true] }

/-- In TRAIL of a READ 25 that sampled `u`, before its only trailing pulse; timestamps of the first row of L2.6. -/
def trailing (u : Sample) : State :=
  { idle with phase := .trail, curN := 25, bitCount := 24, shift := u, tCmd := 1000, tReady := 1030, ts := 1030
              clockIn := [55, 5] }

/-- The same state with the platform's answers given. -/
def answering (as : List Answer) (s : State) : State := { s with gpioIn := as }

/-- The same state with the agenda given. -/
def given (ms : List Move) (s : State) : State := { s with agenda := ms }

/-- A field of the next state. -/
def out {α : Type} (f : State → α) : Host.Outcome State Fault Refusal → Option α
  | .next t => some (f t)
  | _ => none

/-! ## Commands -/

/-- L2.4: READ accepted, first command. -/
theorem test_read_accepted : out status (exec (.read 25) idle) = some 0x00000003#32 := by decide
/-- L2.3: N = 24 is invalid; L2.4 gives STATUS. -/
theorem test_read_invalid : out status (exec (.read 24) idle) = some 0x000000A0#32 := by decide
/-- L1.1: ENCODE B, 32. -/
theorem test_encode_B32 : out State.result (exec (.encode .B 0 .g32) idle) = some 0x1A#32 := by decide
/-- L2.3: A with the reserved gain, and B with gain 64. -/
theorem test_encode_fails :
    out status (exec (.encode .A 0 .reserved) idle) = some 0x000000B0#32 ∧
    out status (exec (.encode .B 0 .g64) idle) = some 0x000000A0#32 := by decide
/-- L1.1: DECODE 26. -/
theorem test_decode_26 : out State.result (exec (.decode 26) idle) = some 0x12#32 := by decide
/-- L3.4: DECODE 28 leaves RESULT. -/
theorem test_decode_28 :
    out (fun t => (status t, t.result)) (exec (.decode 28) { idle with result := 0x1A }) = some (0xA0#32, 0x1A#32) := by decide

/-- R9, L1.1: the run of that program is over after its three operations, with 0x12 received; before them it is not. -/
theorem test_run_ends :
    (programMoves decodeProgram).map (fun ms => (given ms idle).runOver) = some false ∧
    (programMoves decodeProgram).bind (fun ms => (runProgram 9 (given ms idle)).bind
      (out fun t => (t.runOver, t.hostReads, t.ts))) = some (true, [(1, 0x80#32), (2, 0x12#32)], 0#64) := by decide

/-! ## Engine steps, the port and reset -/

/-- L2.5: the deadline is inclusive, and ready wins over it. -/
theorem test_wait_deadline :
    out State.phase (step (waiting true 1099)) = some .wait ∧ out State.code (step (waiting true 1100)) = some .timeout ∧
    out State.tReady (step (waiting false 1100)) = some 1100#64 := by decide
/-- L2.5, last row: the 64-bit counter wraps. -/
theorem test_wait_wrap :
    out State.code (step { waiting true 1000 with
      params := { params with waitTimeout := 0x60 }, tCmd := 0xFFFFFFFFFFFFFFF0#64, ts := 0xFFFFFFFFFFFFFFF0#64
      clockIn := [0x60] }) = some .timeout := by decide
/-- L2.1, the bit-order vector: a later bit stands below an earlier one. -/
theorem test_shift_order : out State.shift (step { shifting 1 with shift := 1 }) = some 3#24 := by decide
/-- The 24th bit enters TRAIL. -/
theorem test_shift_last :
    out (fun t => (t.phase, t.bitCount)) (step (shifting 23)) = some (.trail, 24) ∧
    out State.phase (step (shifting 22)) = some .shift := by decide
/-- L3.1: the end of P1. -/
theorem test_trail_finishes :
    out (fun t => (status t, t.result, t.raw)) (step (trailing 0x800000)) =
      some (0x00006480#32, 0xFF800000#32, 0x00800000#32) ∧
    out (fun t => (t.waitTime, t.convTime, t.totalTime)) (step (trailing 0x800000)) = some (30#32, 55#32, 90#32) := by decide
/-- L2.8: data pulse 7's sample refused. -/
theorem test_bus_fault :
    out (fun t => (t.code, t.desync, t.trace.drop 2)) (step (answering [.ok, .fault, .ok] (shifting 6))) =
      some (.busFault, true, [.clkSet true, .sampleFault, .clkSet false]) := by decide
/-- L2.9: even an invalid word while busy sets OVERRUN and nothing else. -/
theorem test_overrun :
    out (fun t => (t.overrun, t.phase, t.valid)) (step (given [.regWrite 0 0] (shifting 3))) = some (true, .shift, false) := by
  decide
/-- L2.10: an engine reset during SHIFT, then a power-on reset. -/
theorem test_reset_desync :
    out status (step (given [.reset .er] (shifting 3))) = some 0x00000200#32 ∧
    out status (step (given [.reset .por] (shifting 3))) = some 0#32 := by decide
/-- L2.1: corners of the sign extension. -/
theorem test_sample_corners :
    sampleResult 0x7FFFFF = 0x007FFFFF#32 ∧ sampleResult 0x800000 = 0xFF800000#32 ∧ sampleResult 0xFEDCBA = 0xFFFEDCBA#32 := by
  decide
/-- R111: equal pins are refused; R8: an IDLE engine's move is not enabled. -/
theorem test_stops :
    (match step { idle with params := { params with dataPin := 0 } } with | .refused .illFormedConfig => true | _ => false) = true ∧
    (match step (given [.engine] idle) with | .fault .engineNotEnabled => true | _ => false) = true := by decide

/-! ## Witnesses: concrete inputs that meet the hypotheses of each statement, one per clause -/

theorem witness_DecodeOfEncode : (Instr.read 31).wf = true ∧ (Instr.encode .B 3 .reserved).wf = true ∧ (Instr.decode 0).wf = true := by
  decide
theorem witness_EncodeOfDecode : decode 0x3F#32 = .ok (.read 31) := by decide
theorem witness_AssembledWordsDecode : 0 < 32 ∧ 31 < 32 := by decide
theorem witness_CommandStepRunsDecoded :
    (given [.regWrite 0 0x39] idle).params.pinsOk = true ∧ (given [.regWrite 0 0x39] idle).phase = .idle ∧
    (given [.regWrite 0 0x39] idle).agenda = [.regWrite 0 0x39] ∧ decode 0x39 = .ok (.read 25) := by decide
theorem witness_FetchWordRuns : idle.params.pinsOk = true ∧ 0x7B < 2 ^ 32 ∧ decode (BitVec.ofNat 32 0x7B) = .ok (.decode 27) := by
  decide
/-- The boundaries 256, 31 and 128 of the three ranges. -/
theorem witness_ReservedWordCompletesInvalidArgument :
    idle.params.pinsOk = true ∧ idle.phase = .idle ∧ (given [.regWrite 0 31] idle).agenda = [.regWrite 0 31] ∧
    256 ≤ (256#32).toNat ∧ (31#32).toNat < 32 ∧ 128 ≤ (128#32).toNat := by decide
theorem witness_WriteWhileBusyIsDropped :
    (given [.regWrite 0 0x52] (shifting 3)).params.pinsOk = true ∧ (given [.regWrite 0 0x52] (shifting 3)).phase ≠ .idle ∧
    (given [.regWrite 0 0x52] (shifting 3)).agenda = [.regWrite 0 0x52] := by decide
theorem witness_WriteToOtherIndexIgnored :
    (given [.regWrite 15 0x39] idle).params.pinsOk = true ∧ (15 : RegIndex) ≠ 0 ∧
    (given [.regWrite 15 0x39] idle).agenda = [.regWrite 15 0x39] := by decide
theorem witness_RegisterReads :
    (given [.regRead 1] idle).params.pinsOk = true ∧ (given [.regRead 1] idle).agenda = [.regRead 1] ∧
    7 ≤ (7 : RegIndex).toNat ∧ 7 ≤ (15 : RegIndex).toNat := by decide
theorem witness_WaitIdlePolls :
    (given [.waitIdle] idle).params.pinsOk = true ∧ (given [.waitIdle] idle).agenda = [.waitIdle] := by decide
/-- A move of the Clock, and an IDLE machine without an agenda. -/
theorem witness_ClockStepAdvancesTs :
    idle.params.pinsOk = true ∧ (given [.clock (2 ^ 64 - 1)] idle).agenda = [.clock (2 ^ 64 - 1)] ∧
    idle.agenda = [] ∧ idle.phase = .idle := by decide
/-- A program that assembles and one that does not. -/
theorem witness_HostNotation :
    programMoves [.wr (.name .cmd) (.decode 26), .rd (.num 2)] = some [.regWrite 0 0x7A, .regRead 2] ∧
    programMoves [.waitIdle, .wr (.num 0) (.read 32)] = none ∧ hostMove (.wr (.num 0) (.read 32)) = none := by decide
/-- A run that ends, and one that a READ in flight keeps from being over. -/
theorem witness_RunEndsWhenHostDoneAndIdle :
    (∃ o, runProgram 0 idle = some o) ∧ runProgram 0 (shifting 3) = none := ⟨⟨_, rfl⟩, rfl⟩
/-- The default step, and a reset still to come. -/
theorem witness_OnlyTimePassesAfterRun :
    idle.runOver = true ∧ (∃ t, step idle = .next t) ∧ ¬ ResetTurn idle ∧
    (given [.reset .er] idle).runOver = true ∧ (∃ t, step (given [.reset .er] idle) = .next t) :=
  ⟨by decide, ⟨_, rfl⟩, (fun ⟨_, h⟩ => by cases h), by decide, ⟨_, rfl⟩⟩
theorem witness_ConfigurationAndDirectionsFixed :
    (∃ t, step (shifting 3) = .next t) ∧ ¬ ResetTurn (shifting 3) ∧
    (∃ t, step (given [.reset .er] (shifting 3)) = .next t) ∧ ResetTurn (given [.reset .er] (shifting 3)) :=
  ⟨⟨_, rfl⟩, (fun ⟨_, h⟩ => by cases h), ⟨_, rfl⟩, ⟨.er, rfl⟩⟩
theorem witness_PinWriteEffect :
    nextAnswer (answering [.ok] idle) = .ok ∧ nextAnswer (answering [.fault] idle) = .fault ∧
    ({ idle with params := { params with gpioMayFault := false } } : State).params.gpioMayFault = false := by decide
theorem witness_PinReadEffect :
    nextAnswer (answering [.ok] (shifting 0)) = .ok ∧ nextAnswer (answering [.fault] (shifting 0)) = .fault ∧
    (shifting 0).dataIn = true :: [] := by decide
theorem witness_PulseEffect :
    (answering [.ok, .fault, .ok] (shifting 0)).params.gpioMayFault = true ∧
    (answering [.ok, .fault, .ok] (shifting 0)).gpioIn = .ok :: .fault :: .ok :: [] ∧ (shifting 0).dataIn = true :: [] := by decide
theorem witness_TimestampReads : idle.clockIn = 1000 :: 50 :: [] := by decide
/-- The counts either side of the valid ones. -/
theorem witness_ReadInvalidMode :
    idle.phase = .idle ∧ ¬ (24 = 25 ∨ 24 = 26 ∨ 24 = 27) ∧ ¬ (28 = 25 ∨ 28 = 26 ∨ 28 = 27) := by decide
theorem witness_ReadAccepted : (25 = 25 ∨ 25 = 26 ∨ 25 = 27) ∧ nextAnswer (clockStep idle) = .ok := by decide
theorem witness_ReadAcceptanceBusFault :
    (27 = 25 ∨ 27 = 26 ∨ 27 = 27) ∧ nextAnswer (clockStep (answering [.fault] idle)) = .fault := by decide
theorem waiting_turn (d : Level) (t : Nat) : EngineTurn (waiting d t) := ⟨rfl, Phase.noConfusion, .inl rfl⟩
theorem shifting_turn (k : Nat) : EngineTurn (shifting k) := ⟨rfl, Phase.noConfusion, .inl rfl⟩
theorem trailing_turn (u : Sample) : EngineTurn (trailing u) := ⟨rfl, Phase.noConfusion, .inl rfl⟩
/-- Refused; low past the deadline; high at the deadline and one tick before it. -/
theorem witness_WaitPoll :
    (EngineTurn (waiting true 1100) ∧ (waiting true 1100).phase = .wait) ∧
    nextAnswer (answering [.fault] (waiting true 1100)) = .fault ∧ nextAnswer (waiting true 1100) = .ok ∧
    nextLevel (takeAnswer (waiting false 1100)) = false ∧ nextLevel (takeAnswer (waiting true 1100)) = true ∧
    (waiting true 1100).params.waitTimeout.val ≤ ((waiting true 1100).ts + BitVec.ofNat 64 100 - (waiting true 1100).tCmd).toNat ∧
    ((waiting true 1099).ts + BitVec.ofNat 64 99 - (waiting true 1099).tCmd).toNat < (waiting true 1099).params.waitTimeout.val :=
  ⟨⟨waiting_turn _ _, rfl⟩, by decide⟩
theorem witness_ShiftPulse :
    EngineTurn (shifting 23) ∧ (shifting 23).phase = .shift ∧ (shifting 23).bitCount + 1 = 24 ∧ (shifting 22).bitCount + 1 ≠ 24 ∧
    nextAnswer (shifting 23) = .ok ∧ nextAnswer (takeAnswer (shifting 23)) = .ok ∧
    nextAnswer (takeLevel (takeAnswer (takeAnswer (shifting 23)))) = .ok :=
  ⟨shifting_turn _, by decide⟩
/-- The last pulse of a READ 25 and the first of a READ 26. -/
theorem witness_TrailPulse :
    EngineTurn (trailing 1) ∧ (trailing 1).phase = .trail ∧ nextAnswer (trailing 1) = .ok ∧
    nextAnswer (takeAnswer (trailing 1)) = .ok ∧ (trailing 1).trailCount + 1 = (trailing 1).curN.toNat - 24 ∧
    ({ trailing 1 with curN := 26 } : State).trailCount + 1 ≠ ({ trailing 1 with curN := 26 } : State).curN.toNat - 24 :=
  ⟨trailing_turn _, by decide⟩
/-- The last primitive of a pulse refused, in SHIFT and in TRAIL. -/
theorem witness_PulseBusFault :
    EngineTurn (answering [.ok, .ok, .fault] (shifting 23)) ∧
    nextAnswer (takeLevel (takeAnswer (takeAnswer (answering [.ok, .ok, .fault] (shifting 23))))) = .fault ∧
    EngineTurn (answering [.ok, .fault] (trailing 1)) ∧ nextAnswer (takeAnswer (answering [.ok, .fault] (trailing 1))) = .fault :=
  ⟨shifting_turn 23, by decide, trailing_turn 1, by decide⟩
theorem witness_SampleIsTwosComplement : (-2 ^ 23 : Int) ≤ -2 ^ 23 ∧ (2 ^ 23 - 1 : Int) < 2 ^ 23 := by decide

/-- A READ about to start or under way, on a platform that cannot fault. -/
def sure (s : State) : State := { s with params := { params with gpioMayFault := false } }

theorem witness_ShiftClosedForm :
    (sure (shifting 0)).params.pinsOk = true ∧ (sure (shifting 0)).agenda = [] ∧ (sure (shifting 0)).phase = .shift ∧
    (sure (shifting 0)).bitCount = 0 ∧ (sure (shifting 0)).shift = 0 ∧ OkAnswers 72 (sure (shifting 0)) ∧
    ({ sure (shifting 0) with dataIn := List.replicate 24 true } : State).dataIn = List.replicate 24 true ++ [] :=
  ⟨by decide, rfl, rfl, rfl, rfl, .inl rfl, rfl⟩

/-- The start of a READ 27 that polls twice in vain and then is ready. -/
def reading : State :=
  { sure idle with
    agenda := [.regWrite 0 (encode (.read 27))]
    dataIn := List.replicate 2 true ++ false :: (List.replicate 24 true ++ [])
    clockIn := 1000 :: ([10, 10, 10] ++ 55 :: 5 :: []) }

theorem witness_ReadDeliversSample :
    reading.params.pinsOk = true ∧ reading.phase = .idle ∧ (27 = 25 ∨ 27 = 26 ∨ 27 = 27) ∧ OkAnswers (2 + 2 * 27 + 26) reading ∧
    reading.agenda = [.regWrite 0 (encode (.read 27))] ∧
    reading.dataIn = List.replicate 2 true ++ false :: (List.replicate 24 true ++ []) ∧
    reading.clockIn = 1000 :: ([10, 10, 10] ++ 55 :: 5 :: []) ∧ [10, 10, 10].length = 2 + 1 ∧
    (0 < 2 → (List.take 2 [10, 10, 10]).sum < reading.params.waitTimeout.val) :=
  ⟨by decide, rfl, by decide, .inl rfl, rfl, rfl, rfl, rfl, by decide⟩
/-- Ready at the first poll, with a `WAIT_TIMEOUT` of 0. -/
theorem witness_ReadDeliversSample_at_once :
    let s : State := { reading with
      params := { params with waitTimeout := 0, gpioMayFault := false }
      dataIn := List.replicate 0 true ++ false :: (List.replicate 24 true ++ []), clockIn := 1000 :: ([10] ++ 55 :: 5 :: []) }
    s.params.pinsOk = true ∧ s.phase = .idle ∧ s.agenda = [.regWrite 0 (encode (.read 27))] ∧ OkAnswers (0 + 2 * 27 + 26) s ∧
    [10].length = 0 + 1 ∧ (0 < 0 → (List.take 0 [10]).sum < s.params.waitTimeout.val) :=
  ⟨by decide, rfl, rfl, .inl rfl, rfl, fun h => absurd h (by decide)⟩
theorem witness_ReadLineAccounting : reading.clkOut = false ∧ reading.clockIn = 1000 :: ([10, 10, 10] ++ [55, 5]) := by decide
/-- A READ 26 whose third poll stands at the deadline of 100 ticks, the second one tick before it; and one with `k` = 0. -/
theorem witness_TimedOutReadMakesNoEdge :
    let s : State := { sure (given [.regWrite 0 (encode (.read 26))] idle) with
      dataIn := List.replicate (2 + 1) true ++ [false], clockIn := 1000 :: ([50, 49, 1] ++ [7]) }
    s.params.pinsOk = true ∧ s.phase = .idle ∧ s.agenda = [.regWrite 0 (encode (.read 26))] ∧ OkAnswers (2 + 2) s ∧
    [50, 49, 1].length = 2 + 1 ∧ (0 < 2 → (List.take 2 [50, 49, 1]).sum < s.params.waitTimeout.val) ∧
    s.params.waitTimeout.val ≤ [50, 49, 1].sum ∧ [50, 49, 1].sum < 2 ^ 64 ∧
    [100].length = 0 + 1 ∧ (0 < 0 → (List.take 0 [100]).sum < s.params.waitTimeout.val) ∧ s.params.waitTimeout.val ≤ [100].sum :=
  ⟨by decide, rfl, rfl, .inl rfl, by decide⟩
/-- A READ 25 still in WAIT after its first step, and a READ 24, which ends in its first. -/
theorem witness_NoEdgeBeforeShift :
    (given [.regWrite 0 (encode (.read 25))] idle).phase = .idle ∧
    (∃ u, runSteps 1 (given [.regWrite 0 (encode (.read 25))] idle) = .next u ∧ u.phase = .wait ∧ ¬ ResetTurn u) ∧
    (∃ t, runSteps (1 + 1) (given [.regWrite 0 (encode (.read 25))] idle) = .next t) ∧
    (∃ t, runSteps (0 + 1) (given [.regWrite 0 (encode (.read 24))] idle) = .next t ∧ t.code = .invalidMode) :=
  ⟨rfl, ⟨_, rfl, by decide, (fun ⟨_, h⟩ => by cases h)⟩, ⟨_, rfl⟩, ⟨_, rfl, by decide⟩⟩
theorem witness_TimeoutOnlyFromWait :
    ∃ t, step (waiting true 1100) = .next t ∧ t.code = .timeout ∧ (waiting true 1100).phase ≠ .idle ∧ t.phase = .idle :=
  ⟨_, rfl, by decide, Phase.noConfusion, by decide⟩
/-- A step of the Engine, and one of the host while busy. -/
theorem witness_PhaseOrder :
    (∃ t, step (shifting 23) = .next t) ∧ ¬ ResetTurn (shifting 23) ∧
    (∃ t, step (given [.regRead 1] (shifting 3)) = .next t) ∧ (given [.regRead 1] (shifting 3)).phase ≠ .idle ∧
    ¬ EngineTurn (given [.regRead 1] (shifting 3)) :=
  ⟨⟨_, rfl⟩, (fun ⟨_, h⟩ => by cases h), ⟨_, rfl⟩, Phase.noConfusion, fun ⟨_, _, h⟩ =>
    h.elim (fun h => (List.cons_ne_nil _ _ h).elim) fun h => Move.noConfusion (Option.some.inj h)⟩
/-- DECODE 26 changes RESULT; the end of a READ changes RAW and the timing registers. -/
theorem witness_ResultsChangeOnlyOnSuccess :
    (∃ t, step (given [.regWrite 0 0x7A] idle) = .next t ∧ t.result ≠ idle.result) ∧
    (∃ t, step (trailing 1) = .next t ∧ t.raw ≠ (trailing 1).raw) ∧ ¬ ResetTurn (trailing 1) :=
  ⟨⟨_, rfl, by decide⟩, ⟨_, rfl, by decide⟩, (fun ⟨_, h⟩ => by cases h)⟩

theorem shifting_invariant : Invariant (shifting 23) := by
  constructor <;> decide
theorem trailing_invariant : Invariant (trailing 0x800000) := by
  constructor <;> decide
/-- The Engine's turn in SHIFT and TRAIL, and the host's while the READ is in flight. -/
theorem witness_EachEngineStepMakesOnePulse :
    (Invariant (shifting 23) ∧ (∃ t, step (shifting 23) = .next t) ∧ ¬ ResetTurn (shifting 23) ∧ EngineTurn (shifting 23)) ∧
    (Invariant (trailing 0x800000) ∧ (∃ t, step (trailing 0x800000) = .next t) ∧ pulsesLeft (trailing 0x800000) = 1) ∧
    (∃ t, step (given [.regRead 1] (shifting 23)) = .next t) ∧ Invariant (given [.regRead 1] (shifting 23)) ∧
    ¬ EngineTurn (given [.regRead 1] (shifting 23)) :=
  ⟨⟨shifting_invariant, ⟨_, rfl⟩, (fun ⟨_, h⟩ => by cases h), shifting_turn _⟩, ⟨trailing_invariant, ⟨_, rfl⟩, by decide⟩,
    ⟨_, rfl⟩, by constructor <;> decide, fun ⟨_, _, h⟩ =>
      h.elim (fun h => (List.cons_ne_nil _ _ h).elim) fun h => Move.noConfusion (Option.some.inj h)⟩
theorem witness_PulsePhasesBounded :
    Invariant (shifting 23) ∧ (shifting 23).params.pinsOk = true ∧ (shifting 23).agenda = [] ∧ (shifting 23).phase = .shift ∧
    Invariant (trailing 0x800000) ∧ (trailing 0x800000).phase = .trail :=
  ⟨shifting_invariant, by decide, rfl, rfl, trailing_invariant, rfl⟩
/-- Half way to the deadline, with more ticks listed than WAIT can take. -/
theorem witness_WaitEndsByDeadline :
    let s : State := { waiting true 1000 with
      params := { params with waitTimeout := 2 }, ts := 1001, clockIn := [1, 1, 1, 0] }
    s.params.pinsOk = true ∧ s.agenda = [] ∧ s.phase = .wait ∧ s.params.waitTimeout.val + 1 ≤ s.clockIn.length ∧
    (∀ c ∈ s.clockIn.take (s.params.waitTimeout.val + 1), 1 ≤ c) ∧
    (s.ts - s.tCmd).toNat + (s.clockIn.take (s.params.waitTimeout.val + 1)).sum < 2 ^ 64 := by decide
theorem witness_TotalIsWaitPlusConvPlusOverhead : 30 + 55 + (2 ^ 32 - 86) < 2 ^ 32 := by decide
theorem witness_EncodeOutcomes_DecodeOutcomes : idle.phase = .idle := by decide
theorem witness_ModeBijection :
    encodeOutcome .B 0 .g32 = .ok (26#32) ∧ (∃ c, decodeOutcome 27 = .ok c) ∧ idle.phase = .idle ∧
    ¬ (24 = 25 ∨ 24 = 26 ∨ 24 = 27) ∧ ¬ (28 = 25 ∨ 28 = 26 ∨ 28 = 27) := ⟨rfl, ⟨_, rfl⟩, rfl, by decide, by decide⟩
/-- A TIMEOUT and an ENCODE set VALID; a CMD write while busy sets OVERRUN. -/
theorem witness_StickyValidAndOverrun :
    (∃ t, step (waiting true 1100) = .next t ∧ t.phase = .idle) ∧ (waiting true 1100).phase ≠ .idle ∧
    ¬ ResetTurn (waiting true 1100) ∧ (waiting true 1100).valid = false ∧
    (∃ t, step (given [.regWrite 0 0x52] idle) = .next t ∧ t.phase = .idle ∧ t.valid = true) ∧ idle.phase = .idle ∧
    (∃ t, step (given [.regWrite 0 0] (shifting 3)) = .next t ∧ t.overrun = true) ∧ (shifting 3).overrun = false :=
  ⟨⟨_, rfl, by decide⟩, Phase.noConfusion, (fun ⟨_, h⟩ => by cases h), rfl, ⟨_, rfl, by decide, by decide⟩, rfl,
    ⟨_, rfl, by decide⟩, rfl⟩
/-- The end of a READ and an engine reset, both with DESYNC set, and the bus fault that sets it. -/
theorem witness_DesyncOnlyClearedByPowerOn :
    (∃ t, step { trailing 1 with desync := true } = .next t) ∧
    ({ trailing 1 with desync := true } : State).agenda.head? ≠ some (.reset .por) ∧
    ({ trailing 1 with desync := true } : State).latched = none ∧
    (∃ t, step (given [.reset .er] { trailing 1 with desync := true }) = .next t) ∧
    (shifting 6).desync = false ∧ (∃ t, step (answering [.fault] (shifting 6)) = .next t ∧ t.desync = true) :=
  ⟨⟨_, rfl⟩, by decide, rfl, ⟨_, rfl⟩, rfl, ⟨_, rfl, by decide⟩⟩
theorem witness_ResetEffect :
    (given [.reset .er] (shifting 3)).params.pinsOk = true ∧ (given [.reset .er] (shifting 3)).agenda = [.reset .er] := by decide
theorem witness_StepKeepsInvariant : Invariant (shifting 23) ∧ ∃ t, step (shifting 23) = .next t :=
  ⟨shifting_invariant, ⟨_, rfl⟩⟩
/-- The clock 7 ticks later, `t_cmd` and `t_ready` with it. -/
theorem witness_AbsoluteTimeUnseen :
    TimeShifted 7 (trailing 1) { trailing 1 with ts := 1037, tCmd := 1007, tReady := 1037 } :=
  ⟨by simp [trailing], fun _ => rfl, fun _ => rfl⟩
theorem witness_WellFormedStepsGoOn :
    idle.params.pinsOk = true ∧ ¬ (idle.phase = .idle ∧ idle.agenda.head? = some .engine) := by decide
theorem witness_FaultsExactlyWhenNotEnabled :
    (given [.engine] idle).params.pinsOk = true ∧ (given [.engine] idle).phase = .idle ∧
    (given [.engine] idle).agenda.head? = some .engine := by decide

end Sys2Proof.Tests
end

section
/-! The statements of `00_scope.md`: where a step stops, where a run of a host program ends, and what no step changes
(R7, R8, R9, R30). -/

namespace Sys2Proof.Machine

/-! ### Where a step stops (R8, R111) -/

/-- The Engine's move where no command is in flight is the one that faults (R8, log 17). -/
theorem step_engine_idle {s : State} (hp : s.params.pinsOk = true) (hi : s.phase = .idle)
    (ha : s.agenda.head? = some .engine) : step s = .fault .engineNotEnabled := by
  obtain ⟨rest, hs⟩ := List.head?_eq_some_iff.1 ha
  have hb : State.busy { s with agenda := rest } = false := (busy_false_iff _).2 hi
  simp [step_pinsOk hp, hs, perform, hb]

theorem step_illFormed {s : State} (hp : ¬ s.params.pinsOk = true) : step s = .refused .illFormedConfig := by
  unfold step
  exact if_neg hp

/-- From a well-formed configuration every other step goes on (R8). -/
theorem step_goesOn {s : State} (hp : s.params.pinsOk = true)
    (h : ¬ (s.phase = .idle ∧ s.agenda.head? = some .engine)) : StepSafe s := by
  unfold StepSafe
  rw [step_pinsOk hp]
  rcases hs : s.agenda with _ | ⟨m, rest⟩
  · exact ⟨_, rfl⟩
  · obtain ht | ⟨rfl, hi, -⟩ := perform_next m { s with agenda := rest }
    · exact ht
    · exact absurd ⟨hi, by rw [hs]; rfl⟩ h

/-- Settles O17: of the three kinds of step (ill-formed, not enabled, going on) only the middle one faults. -/
theorem faultsExactlyWhenNotEnabled : Obligations.FaultsExactlyWhenNotEnabled := by
  intro s f
  constructor
  · intro hf
    by_cases hp : s.params.pinsOk = true
    · by_contra hne
      obtain ⟨t, ht⟩ := step_goesOn hp fun ⟨hi, ha⟩ => hne ⟨hp, hi, ha⟩
      simp [ht] at hf
    · simp [step_illFormed hp] at hf
  · rintro ⟨hp, hi, ha⟩
    cases f
    exact step_engine_idle hp hi ha

/-- Settles O56: the one step that could stop is the Engine's while IDLE. -/
theorem wellFormedStepsGoOn : Obligations.WellFormedStepsGoOn := fun _ => step_goesOn

/-! ### Where a run ends (R9, log 26) -/

/-- STATUS.BUSY is bit 0 (R32). -/
theorem status_busyBit (s : State) : (status s).getLsbD 0 = s.busy := by
  rw [status, BitVec.getLsbD_setWidth, BitVec.getLsbD_append]
  simp

theorem Move.isHost_eq_false_iff (m : Move) :
    m.isHost = false ↔ m ≠ .waitIdle ∧ (∀ idx, m ≠ .regRead idx) ∧ ∀ idx v, m ≠ .regWrite idx v := by
  cases m <;> simp [Move.isHost]

/-- The run, as its steps go, is not over in any of its first `j` states. -/
def NotOverBefore (j : Nat) (s : State) : Prop := ∀ i < j, ∃ u, runSteps i s = .next u ∧ u.runOver = false

theorem NotOverBefore.zero (s : State) : NotOverBefore 0 s := fun _ h => absurd h (Nat.not_lt_zero _)

theorem NotOverBefore.one {s : State} (hn : s.runOver = false) : NotOverBefore 1 s := by
  intro i hi
  obtain rfl : i = 0 := by omega
  exact ⟨s, rfl, hn⟩

theorem NotOverBefore.succ {j : Nat} {s t : State} (hn : s.runOver = false) (h : step s = .next t)
    (ht : NotOverBefore j t) : NotOverBefore (j + 1) s := by
  intro i hi
  cases i with
  | zero => exact ⟨s, rfl, hn⟩
  | succ i =>
    rw [runSteps_next i h]
    exact ht i (by omega)

/-- The first step that does not go on is the run's outcome. -/
theorem runSteps_one_of_stops {s : State} (h : ∀ t, step s ≠ .next t) : runSteps 1 s = step s := by
  have e : Sys2Proof.core.step s = step s := rfl
  simp only [runSteps, Host.Core.run, e]
  cases hs : step s with
  | next t => exact absurd hs (h t)
  | fault r => rfl
  | refused r => rfl

/-- A run that is not over ends with the step that stops. -/
theorem runProgram_stops (k : Nat) {s : State} (hn : s.runOver = false) (h : ∀ t, step s ≠ .next t) :
    runProgram (k + 1) s = some (step s) := by
  simp only [runProgram, hn, Bool.false_eq_true, if_false]
  cases hs : step s with
  | next t => exact absurd hs (h t)
  | fault r => rfl
  | refused r => rfl

theorem runProgram_zero_of_notOver {s : State} (hn : s.runOver = false) : runProgram 0 s = none := by
  simp [runProgram, hn]

/-- What a run answers is what its steps answer, up to the first state where it is over or the step that stops (R9). -/
theorem runProgram_some {k : Nat} {s : State} {o : Host.Outcome State Fault Refusal} (h : runProgram k s = some o) :
    ∃ j ≤ k, runSteps j s = o ∧ (∀ t, o = .next t → t.runOver = true) ∧ NotOverBefore j s := by
  induction k generalizing s with
  | zero =>
    cases hn : s.runOver
    · simp [runProgram_zero_of_notOver hn] at h
    · obtain rfl : .next s = o := by simpa [runProgram_over 0 hn] using h
      exact ⟨0, le_rfl, rfl, by rintro _ ⟨⟩; exact hn, .zero s⟩
  | succ k ih =>
    cases hn : s.runOver
    · by_cases hg : ∃ t, step s = .next t
      · obtain ⟨t, ht⟩ := hg
        rw [runProgram_next k hn ht] at h
        obtain ⟨j, hj, ho, hover, hb⟩ := ih h
        exact ⟨j + 1, by omega, by rw [runSteps_next j ht, ho], hover, hb.succ hn ht⟩
      · have hstop : ∀ t, step s ≠ .next t := fun t ht => hg ⟨t, ht⟩
        obtain rfl : step s = o := by simpa [runProgram_stops k hn hstop] using h
        exact ⟨1, by omega, runSteps_one_of_stops hstop, fun t ht => absurd ht (hstop t), .one hn⟩
    · obtain rfl : .next s = o := by simpa [runProgram_over (k + 1) hn] using h
      exact ⟨0, by omega, rfl, by rintro _ ⟨⟩; exact hn, .zero s⟩

theorem notOver_of_runProgram_none {k : Nat} {s : State} (h : runProgram k s = none) : s.runOver = false := by
  by_contra hn
  simp [runProgram_over k (by simpa using hn)] at h

/-- A run that `k` steps do not end has gone on `k` steps and is not over (R9). -/
theorem runProgram_none {k : Nat} {s : State} (h : runProgram k s = none) : NotOverBefore (k + 1) s := by
  induction k generalizing s with
  | zero => exact .one (notOver_of_runProgram_none h)
  | succ k ih =>
    have hn := notOver_of_runProgram_none h
    by_cases hg : ∃ t, step s = .next t
    · obtain ⟨t, ht⟩ := hg
      rw [runProgram_next k hn ht] at h
      exact (ih h).succ hn ht
    · rw [runProgram_stops k hn fun t ht => hg ⟨t, ht⟩] at h
      cases h

/-- Settles O18: the end of a run by its agenda and STATUS, and `runProgram` against the steps by induction on the fuel. -/
theorem runEndsWhenHostDoneAndIdle : Obligations.RunEndsWhenHostDoneAndIdle := by
  refine ⟨fun s => ?_, fun _ _ _ => runProgram_some, fun k s h i hi => runProgram_none h i (by omega)⟩
  rw [runOver_iff, status_busyBit, busy_false_iff]
  simp only [Move.isHost_eq_false_iff]

/-! ### After the end of a run (R9, log 26) -/

/-- The steps there are once a run is over: the Clock's, and a reset. -/
inductive OverCase (s t : State) : Prop
  | clockDefault (ha : s.agenda = []) (h : t = clockStep s)
  | clock (k : Nat) (rest : List Move) (ha : s.agenda = .clock k :: rest) (h : t = clockAdvance k { s with agenda := rest })
  | reset (k : ResetKind) (rest : List Move) (ha : s.agenda = .reset k :: rest) (h : t = doReset k { s with agenda := rest })

theorem step_over_cases {s t : State} (ho : s.runOver = true) (h : step s = .next t) : OverCase s t := by
  obtain ⟨hagenda, hidle⟩ := (runOver_iff s).1 ho
  have noHost {m : Move} {rest : List Move} (ha : s.agenda = m :: rest) (hm : m.isHost = true) : OverCase s t := by
    have := hagenda m (by simp [ha])
    simp [hm] at this
  obtain ⟨-, c⟩ := step_cases h
  cases c with
  | engine turn _ =>
    obtain ⟨-, hbusy, -⟩ := turn
    exact absurd hidle hbusy
  | clockDefault _ ha h => exact .clockDefault ha h
  | clock k rest ha h => exact .clock k rest ha h
  | reset k rest ha h => exact .reset k rest ha h
  | regRead _ _ ha => exact noHost ha rfl
  | writeIgnored _ _ _ ha => exact noHost ha rfl
  | writeBusy _ _ ha => exact noHost ha rfl
  | writeRejected _ _ _ ha => exact noHost ha rfl
  | command _ _ _ ha => exact noHost ha rfl
  | waitIdleBusy _ ha => exact noHost ha rfl
  | waitIdleDone _ ha => exact noHost ha rfl

/-- A step that takes its move off the agenda and leaves the engine IDLE keeps a run over. -/
theorem runOver_of_agenda_tail {s t : State} (ho : s.runOver = true) (ha : t.agenda = s.agenda.tail)
    (hi : t.phase = .idle) : t.runOver = true := by
  obtain ⟨hagenda, -⟩ := (runOver_iff s).1 ho
  exact (runOver_iff t).2 ⟨fun m hm => hagenda m (List.mem_of_mem_tail (ha ▸ hm)), hi⟩

/-- Settles O19: the Clock's step writes `ts` and its own draws, and the reset is the exception. -/
theorem onlyTimePassesAfterRun : Obligations.OnlyTimePassesAfterRun := by
  intro s t ho h
  have hidle : s.phase = .idle := ((runOver_iff s).1 ho).2
  cases step_over_cases ho h with
  | clockDefault ha h =>
    subst h
    refine ⟨runOver_of_agenda_tail ho (by simp [ha]) (by simpa using hidle), fun _ => ?_⟩
    rw [ha, List.tail_nil, ← ha]
    rfl
  | clock k rest ha h =>
    subst h
    refine ⟨runOver_of_agenda_tail ho (by simp [ha]) (by simpa using hidle), fun _ => ?_⟩
    rw [ha]
    rfl
  | reset k rest ha h =>
    subst h
    exact ⟨runOver_of_agenda_tail ho (by rw [ha]; rfl) rfl, fun hr => absurd ⟨k, by rw [ha]; rfl⟩ hr⟩

/-! ### What no step changes (R7, R30, log 6) -/

/-- The configuration and the pin directions are the same. -/
structure FixedSame (s t : State) : Prop where
  params  : t.params = s.params
  clkDir  : t.clkDir = s.clkDir
  dataDir : t.dataDir = s.dataDir

theorem accept_fixedSame (n : Nat) (s : State) : FixedSame s (accept n s) := by
  obtain ⟨tr, u, rfl, e | e⟩ := accept_cases n s <;> rw [e] <;> exact ⟨rfl, rfl, rfl⟩

theorem exec_fixedSame {i : Instr} {s t : State} (h : exec i s = .next t) : FixedSame s t := by
  cases exec_cases h with
  | done v h => subst h; exact ⟨rfl, rfl, rfl⟩
  | failed c _ h => subst h; exact ⟨rfl, rfl, rfl⟩
  | accepted n _ h => subst h; exact accept_fixedSame n s

/-- The move taken off the agenda is neither. -/
theorem FixedSame.of_agenda {s t : State} {rest : List Move} (h : FixedSame { s with agenda := rest } t) : FixedSame s t :=
  ⟨h.params, h.clkDir, h.dataDir⟩

theorem EngineKeeps.fixedSame {s t : State} (h : EngineKeeps s t) : FixedSame s t :=
  ⟨h.params, h.clkDir, h.dataDir⟩

/-- No step but a reset touches the configuration or the pin directions (R7, R30). -/
theorem step_fixedSame {s t : State} (h : step s = .next t) (hr : ¬ ResetTurn s) : FixedSame s t := by
  obtain ⟨-, c⟩ := step_cases h
  cases c with
  | engine turn h =>
    obtain ⟨-, hbusy, -⟩ := turn
    subst h
    exact .of_agenda (engineStep_keeps (s := { s with agenda := s.agenda.tail }) hbusy).fixedSame
  | command _ _ _ _ _ _ h => exact .of_agenda (exec_fixedSame h)
  | reset k rest ha => exact absurd ⟨k, by rw [ha]; rfl⟩ hr
  | clockDefault _ _ h | regRead _ _ _ h | writeIgnored _ _ _ _ _ h | writeBusy _ _ _ _ h | writeRejected _ _ _ _ _ _ h
  | waitIdleBusy _ _ _ h | waitIdleDone _ _ _ h | clock _ _ _ h => subst h; exact ⟨rfl, rfl, rfl⟩

/-- On a reset's turn the step is that reset (R112). -/
theorem step_resetTurn {s t : State} (h : step s = .next t) (hr : ResetTurn s) :
    ∃ k, t = doReset k { s with agenda := s.agenda.tail } := by
  obtain ⟨k, hk⟩ := hr
  obtain ⟨rest, ha⟩ := List.head?_eq_some_iff.1 hk
  obtain ⟨hp, -⟩ := step_cases h
  rw [step_pinsOk hp] at h
  simp only [ha, perform, Host.Outcome.next.injEq] at h
  exact ⟨k, by rw [ha]; exact h.symm⟩

/-- Settles O20: a reset's step is `doReset`, and every other step leaves the three fields the same. -/
theorem configurationAndDirectionsFixed : Obligations.ConfigurationAndDirectionsFixed := by
  intro s t h
  by_cases hr : ResetTurn s
  · obtain ⟨k, rfl⟩ := step_resetTurn h hr
    rw [doReset_eq]
    exact ⟨rfl, absurd hr, fun _ => ⟨rfl, rfl⟩⟩
  · obtain ⟨hparams, hclk, hdata⟩ := step_fixedSame h hr
    exact ⟨hparams, fun _ => ⟨hclk, hdata⟩, fun h => absurd h hr⟩

end Sys2Proof.Machine
end

section
/-! The statements of `10_state.md`: what each kind of step changes (R15, R18–R20, R24–R28, R76), the invariant (R29), the layout
of STATUS (R32), the state after reset (R13), and that no register depends on the absolute time (R22). -/

namespace Sys2Proof.Machine

/-! ### The four kinds of step

The eleven cases of `StepCase` fall into four kinds: the Engine's step, a CMD write taken while IDLE, a reset, and the steps of the
other agents, which leave the engine's own fields alone. -/

/-- `t` is `s` after a step of the Host or the Clock that starts no command: the READ in flight, the registers, the flags but
OVERRUN, the lines and the platform are as they were (R35, R36, R38, R84). -/
def EngineUntouched (s t : State) : Prop :=
  t = { s with ts := t.ts, overrun := t.overrun, agenda := t.agenda, clockIn := t.clockIn, freeCount := t.freeCount
               hostReads := t.hostReads }

/-- A CMD write is the next step. -/
def CmdWriteTurn (s : State) : Prop := ∃ v, s.agenda.head? = some (.regWrite 0 v)

/-- The four kinds of step. -/
inductive StepKind (s t : State) : Prop
  | engine (turn : EngineTurn s) (h : t = engineStep { s with agenda := s.agenda.tail })
  | dispatched (v : Word) (idle : s.phase = .idle) (ha : s.agenda.head? = some (.regWrite 0 v))
      (h : dispatch v { s with agenda := s.agenda.tail } = .next t)
  | untouched (busy : CmdWriteTurn s → s.phase ≠ .idle) (h : EngineUntouched s t)
      (ho : t.overrun = s.overrun ∨ t.overrun = true ∧ CmdWriteTurn s)
  | reset (k : ResetKind) (ha : s.agenda.head? = some (.reset k)) (h : t = doReset k { s with agenda := s.agenda.tail })

theorem not_cmdWriteTurn_of_cons {s : State} {m : Move} {rest : List Move} (ha : s.agenda = m :: rest)
    (hm : ∀ v, m ≠ .regWrite 0 v) : ¬ CmdWriteTurn s := by
  rintro ⟨v, h⟩
  rw [ha] at h
  exact hm v (Option.some.inj h)

/-- A step that starts no command by taking no CMD write at all. -/
theorem StepKind.of_noWrite {s t : State} (hw : ¬ CmdWriteTurn s) (h : EngineUntouched s t) (ho : t.overrun = s.overrun) :
    StepKind s t :=
  .untouched (fun h => absurd h hw) h (.inl ho)

/-- The inversion the statements of this file go through. -/
theorem step_kind {s t : State} (h : step s = .next t) : StepKind s t := by
  obtain ⟨-, c⟩ := step_cases h
  cases c with
  | engine turn h => exact .engine turn h
  | clockDefault _ ha h =>
    subst h
    refine .of_noWrite ?_ rfl rfl
    rintro ⟨v, hv⟩
    simp [ha] at hv
  | regRead _ _ ha h | waitIdleBusy _ ha _ h | waitIdleDone _ ha _ h | clock _ _ ha h =>
    subst h
    exact .of_noWrite (not_cmdWriteTurn_of_cons ha (by simp)) rfl rfl
  | writeIgnored idx _ _ ha hi h =>
    subst h
    exact .of_noWrite (not_cmdWriteTurn_of_cons ha (by rintro v ⟨⟩; exact hi rfl)) rfl rfl
  | writeBusy v _ ha busy h =>
    subst h
    exact .untouched (fun _ => busy) rfl (.inr ⟨rfl, v, by simp [ha]⟩)
  | writeRejected v e _ ha idle hd h =>
    exact .dispatched v idle (by simp [ha]) (by simp [dispatch, hd, ha, h])
  | command v i _ ha idle hd h =>
    exact .dispatched v idle (by simp [ha]) (by simpa [dispatch, hd, ha] using h)
  | reset k _ ha h => exact .reset k (by simp [ha]) (by simpa [ha] using h)

/-- A word taken as a command, one that is none included, ends in one of the ways a command does (R51, R52). -/
theorem dispatch_cases {v : Word} {s t : State} (h : dispatch v s = .next t) : CommandCase s t := by
  unfold dispatch at h
  split at h
  · exact exec_cases h
  · exact .failed _ (.inr rfl) (Host.Outcome.next.inj h).symm

/-! ### The invariant (R29) -/

theorem State.reset_invariant : Invariant State.reset := by
  constructor <;> simp [State.reset]

/-- Settles O52, field by field of the reset state. -/
theorem resetMeetsInvariant : Obligations.ResetMeetsInvariant := State.reset_invariant

theorem EngineUntouched.invariant {s t : State} (h : EngineUntouched s t) (hs : Invariant s) : Invariant t := by
  rw [h]
  exact { hs with }

theorem LinesOnly.phase {s u : State} (h : LinesOnly s u) : u.phase = s.phase := by rw [h]

theorem LinesOnly.invariant {s u : State} (h : LinesOnly s u) (hc : u.clkOut = false) (hs : Invariant s) : Invariant u := by
  rw [h]
  exact { hs with clk_low := hc }

/-- At IDLE nothing is asked of the counters but their ranges. -/
theorem Invariant.toIdle {s : State} (hs : Invariant s) : Invariant { s with phase := .idle } :=
  { hs with
    wait_cleared := nofun, shift_bits := nofun, shift_partial := nofun, trail_pulses := nofun
    busy_legal := fun h => absurd rfl h }

theorem complete_invariant (c : Code) {s : State} (hs : Invariant s) : Invariant (complete c s) :=
  { hs.toIdle with }

theorem busFaultDesync_invariant {s : State} (hs : Invariant s) : Invariant (busFaultDesync s) :=
  { complete_invariant .busFault hs with desync_unknown := fun _ => rfl, latched_legal := nofun }

/-- Acceptance clears the counters and the accumulator, and CLK is low whatever the platform answers (R64). -/
theorem accept_invariant {n : Nat} {s : State} (hn : legalPulses n = true) (hs : Invariant s) : Invariant (accept n s) := by
  obtain ⟨tr, u, hu, e⟩ := accept_cases n s
  have hcur : (BitVec.ofNat 5 n).toNat = n := by
    obtain rfl | rfl | rfl := (legalPulses_iff n).1 hn <;> rfl
  have hw : Invariant { u with phase := .wait } := by
    rw [hu]
    exact { hs with
      wait_cleared := fun _ => ⟨rfl, rfl, rfl⟩, shift_bits := nofun, shift_partial := nofun, trail_pulses := nofun
      busy_legal := fun _ => by rw [hcur]; exact hn
      bits_range := Nat.zero_le _, trail_range := Nat.zero_le _, clk_low := rfl }
  obtain e | e := e <;> rw [e]
  · exact hw
  · exact busFaultDesync_invariant (s := { u with phase := .wait }) hw

theorem CommandCase.invariant {s t : State} (h : CommandCase s t) (hs : Invariant s) : Invariant t := by
  cases h with
  | done v h => subst h; exact complete_invariant .ok { hs with }
  | failed c _ h => subst h; exact complete_invariant c hs
  | accepted n hn h => subst h; exact accept_invariant hn hs

theorem polled_invariant (d : Level) (x : Stamp) {s : State} (hs : Invariant s) : Invariant (polled d x s) := { hs with }

/-- A poll that is ready enters SHIFT with the counters and the accumulator still cleared (R65). -/
theorem waitStep_invariant {s : State} (h : s.phase = .wait) (hs : Invariant s) : Invariant (waitStep s) := by
  obtain ⟨hbits, htrail, hshift⟩ := hs.wait_cleared h
  have hbusy : s.phase ≠ .idle := by simp [h]
  obtain e | e | ⟨-, e⟩ | ⟨-, e⟩ := waitStep_cases s <;> rw [e]
  · exact complete_invariant .busFault (s := { s with
      trace := s.trace ++ [.sampleFault], gpioIn := s.gpioIn.tail, freeCount := s.freeCount + 1 }) { hs with }
  · exact { hs with
      wait_cleared := nofun, trail_pulses := nofun
      shift_bits := fun _ => ⟨by simp [polled, hbits], htrail⟩
      shift_partial := fun _ => by simp [polled, hbits, hshift]
      busy_legal := fun _ => hs.busy_legal hbusy }
  · exact complete_invariant _ (polled_invariant _ _ hs)
  · exact polled_invariant _ _ hs

theorem shiftIn_toNat_le (u : Sample) (d : Level) : (shiftIn u d).toNat ≤ 2 * u.toNat + 1 := by
  have hd := d.toNat_le
  simp only [shiftIn, BitVec.toNat_append, BitVec.toNat_ofBool, BitVec.extractLsb'_toNat, Nat.shiftRight_zero]
  rw [← Nat.shiftLeft_add_eq_or_of_lt (by omega), Nat.shiftLeft_eq]
  omega

/-- A partial accumulator stays within the bits sampled (R68). -/
theorem shiftIn_toNat_lt {u : Sample} {k : Nat} (d : Level) (h : u.toNat < 2 ^ k) : (shiftIn u d).toNat < 2 ^ (k + 1) := by
  have := shiftIn_toNat_le u d
  omega

/-- The 24th data pulse enters TRAIL with at least one pulse to make (R67). -/
theorem shiftStep_invariant {s : State} (h : s.phase = .shift) (hs : Invariant s) : Invariant (shiftStep s) := by
  obtain ⟨u, hl, hc, e⟩ := shiftStep_cases s
  have hu := hl.invariant hc hs
  have hphase : u.phase = .shift := hl.phase.trans h
  obtain ⟨hbits, htrail⟩ := hu.shift_bits hphase
  have hpartial := hu.shift_partial hphase
  have hlegal := hu.busy_legal (by simp [hphase])
  have hshift : u.shift = s.shift := by rw [hl]
  have hcount : u.bitCount = s.bitCount := by rw [hl]
  rw [← hshift, ← hcount] at e
  obtain e | ⟨d, ⟨hlast, e⟩ | ⟨hmore, e⟩⟩ := e <;> rw [e]
  · exact busFaultDesync_invariant hu
  · exact { hu with
      wait_cleared := nofun, shift_bits := nofun, shift_partial := nofun
      trail_pulses := fun _ => ⟨hlast, by rw [legalPulses_iff] at hlegal; dsimp only; omega⟩
      busy_legal := fun _ => hlegal
      bits_range := hlast.le, trail_range := Nat.zero_le _ }
  · exact { hu with
      wait_cleared := fun k => by simp [hphase] at k
      shift_bits := fun _ => ⟨by dsimp only; omega, htrail⟩
      shift_partial := fun _ => shiftIn_toNat_lt d hpartial
      trail_pulses := fun k => by simp [hphase] at k
      bits_range := by dsimp only; omega }

theorem takeConv_invariant {s : State} (hs : Invariant s) : Invariant (takeConv s) := by
  rw [takeConv_eq]
  exact { hs with }

theorem sampleRaw_high (u : Sample) : (sampleRaw u).extractLsb' 24 8 = 0 := by
  ext i hi
  simp [sampleRaw]

/-- `Finish()` writes legal modes and a 24-bit RAW; it does not look at the phase or the counters (R73, R74). -/
theorem finish_invariant {s : State} (hn : legalPulses s.curN.toNat = true) (hs : Invariant { s with phase := .idle }) :
    Invariant (finish s) := by
  rw [finish_eq]
  exact { hs with
    desync_unknown := fun hd => if_pos hd
    latched_legal := fun n h => by
      obtain ⟨-, rfl⟩ : ¬ s.desync = true ∧ s.curN = n := by simpa using h
      exact hn
    smode_legal := hs.latched_legal
    raw_high := sampleRaw_high s.shift }

theorem trailStep_invariant {s : State} (h : s.phase = .trail) (hs : Invariant s) : Invariant (trailStep s) := by
  obtain ⟨u, hl, hc, e⟩ := trailStep_cases s
  have hu := hl.invariant hc hs
  have hphase : u.phase = .trail := hl.phase.trans h
  have hlegal := hu.busy_legal (by simp [hphase])
  have hpulses := (legalPulses_iff _).1 hlegal
  obtain ⟨hbits, htrail⟩ := hu.trail_pulses hphase
  have hcount : u.trailCount = s.trailCount := by rw [hl]
  have hcur : u.curN = s.curN := by rw [hl]
  rw [← hcount, ← hcur] at e
  obtain e | ⟨hmore, e⟩ | ⟨hlast, e⟩ := e <;> rw [e]
  · exact busFaultDesync_invariant hu
  · exact { hu with
      wait_cleared := fun k => by simp [hphase] at k
      shift_bits := fun k => by simp [hphase] at k
      trail_pulses := fun _ => ⟨hbits, by dsimp only; omega⟩
      trail_range := by dsimp only; omega }
  · have hidle : Invariant { u with trailCount := u.trailCount + 1, phase := .idle } :=
      { hu.toIdle with
        wait_cleared := nofun, shift_bits := nofun, trail_pulses := nofun, trail_range := by dsimp only; omega }
    exact finish_invariant hlegal (takeConv_invariant hidle)

theorem engineStep_invariant {s : State} (hs : Invariant s) : Invariant (engineStep s) := by
  unfold engineStep
  split
  · exact hs
  · exact waitStep_invariant ‹_› hs
  · exact shiftStep_invariant ‹_› hs
  · exact trailStep_invariant ‹_› hs

/-- A reset leaves the state of State.reset but for DESYNC, which `latched` = Unknown always allows (R112). -/
theorem doReset_invariant (k : ResetKind) (s : State) : Invariant (doReset k s) := by
  rw [doReset_eq]
  exact { State.reset_invariant with desync_unknown := fun _ => rfl }

theorem Invariant.withAgenda {s : State} (ms : List Move) (hs : Invariant s) : Invariant { s with agenda := ms } := { hs with }

/-- Settles O53: each of the four kinds of step keeps the invariant. -/
theorem stepKeepsInvariant : Obligations.StepKeepsInvariant := by
  intro s t hs h
  have hs' := hs.withAgenda s.agenda.tail
  cases step_kind h with
  | engine turn h => subst h; exact engineStep_invariant hs'
  | dispatched v idle ha h => exact (dispatch_cases h).invariant hs'
  | untouched busy h ho => exact h.invariant hs
  | reset k ha h => subst h; exact doReset_invariant k _

/-! ### The state after reset (R13) and the layout of STATUS (R32) -/

/-- Settles O51, by evaluating the reset state. -/
theorem resetState : Obligations.ResetState := by
  refine ⟨rfl, rfl, rfl, rfl, rfl, rfl, rfl, rfl, rfl, rfl, rfl, rfl, rfl, rfl, rfl, ?_⟩
  decide

theorem status_flags (s : State) :
    (status s).getLsbD 7 = s.valid ∧ (status s).getLsbD 8 = s.overrun ∧ (status s).getLsbD 9 = s.desync := by
  simp only [status, BitVec.getLsbD_setWidth, BitVec.getLsbD_append]
  simp

theorem status_phaseField (s : State) : (status s).extractLsb' 1 3 = s.phase.bits := by
  rw [status, BitVec.extractLsb'_setWidth_of_le (by decide)]
  simp (disch := decide) only [BitVec.extractLsb'_append_eq_of_le]
  exact BitVec.extractLsb'_append_eq_right

theorem status_codeField (s : State) : (status s).extractLsb' 4 3 = s.code.bits := by
  rw [status, BitVec.extractLsb'_setWidth_of_le (by decide)]
  simp (disch := decide) only [BitVec.extractLsb'_append_eq_of_le]
  exact BitVec.extractLsb'_append_eq_right

theorem status_latchedField (s : State) : (status s).extractLsb' 10 5 = encPulses s.latched := by
  rw [status, BitVec.extractLsb'_setWidth_of_le (by decide)]
  simp (disch := decide) only [BitVec.extractLsb'_append_eq_of_le]
  exact BitVec.extractLsb'_append_eq_right

theorem status_smodeField (s : State) : (status s).extractLsb' 15 5 = encPulses s.smode := by
  rw [status, BitVec.extractLsb'_setWidth_of_le (by decide)]
  simp (disch := decide) only [BitVec.extractLsb'_append_eq_of_le]
  exact BitVec.extractLsb'_eq_self

theorem status_highField (s : State) : (status s).extractLsb' 20 12 = 0 := by
  rw [status, BitVec.extractLsb'_setWidth_of_le (by decide)]
  simp (disch := decide) only [BitVec.extractLsb'_append_eq_of_le]
  ext i hi
  simp

/-- Settles O14, field by field. -/
theorem statusLayout : Obligations.StatusLayout := by
  intro s
  obtain ⟨hvalid, hoverrun, hdesync⟩ := status_flags s
  refine ⟨?_, ?_, ?_, hvalid, hoverrun, hdesync, ?_, ?_, status_highField s⟩
  · rw [status_busyBit, busy_iff]
  · rw [status_phaseField]; cases s.phase <;> rfl
  · rw [status_codeField]; cases s.code <;> rfl
  · rw [status_latchedField]; cases s.latched <;> rfl
  · rw [status_smodeField]; cases s.smode <;> rfl

/-! ### The order of the phases (R15, R76) -/

theorem waitStep_phase {s : State} (h : s.phase = .wait) : (waitStep s).phase ∈ [Phase.wait, .shift, .idle] := by
  obtain e | e | ⟨-, e⟩ | ⟨-, e⟩ := waitStep_cases s <;> rw [e] <;> simp [polled, h]

theorem shiftStep_phase {s : State} (h : s.phase = .shift) : (shiftStep s).phase ∈ [Phase.shift, .trail, .idle] := by
  obtain ⟨u, hl, -, e | ⟨d, ⟨-, e⟩ | ⟨-, e⟩⟩⟩ := shiftStep_cases s <;> rw [e, hl] <;> simp [h]

theorem trailStep_phase {s : State} (h : s.phase = .trail) : (trailStep s).phase ∈ [Phase.trail, .idle] := by
  obtain ⟨u, hl, -, e | ⟨-, e⟩ | ⟨-, e⟩⟩ := trailStep_cases s
  · rw [e]; simp
  · rw [e, hl]; simp [h]
  · rw [e, finish_eq]; simp

/-- The moves of `phase` (R15). -/
def phaseMoves : List (Phase × Phase) :=
  [(.idle, .idle), (.idle, .wait), (.wait, .wait), (.wait, .shift), (.wait, .idle),
    (.shift, .shift), (.shift, .trail), (.shift, .idle), (.trail, .trail), (.trail, .idle)]

theorem phaseMoves_same (p : Phase) : (p, p) ∈ phaseMoves := by cases p <;> decide

theorem engineStep_phase (s : State) : (s.phase, (engineStep s).phase) ∈ phaseMoves := by
  cases h : s.phase with
  | idle => simp [engineStep, h, phaseMoves]
  | wait => have := waitStep_phase h; simpa [engineStep_wait h, phaseMoves] using this
  | shift => have := shiftStep_phase h; simpa [engineStep_shift h, phaseMoves] using this
  | trail => have := trailStep_phase h; simpa [engineStep_trail h, phaseMoves] using this

theorem CommandCase.phase {s t : State} (h : CommandCase s t) : t.phase ∈ [Phase.idle, .wait] := by
  cases h with
  | done v h => subst h; simp
  | failed c _ h => subst h; simp
  | accepted n _ h => obtain ⟨tr, u, rfl, e | e⟩ := accept_cases n s <;> rw [h, e] <;> simp

theorem EngineUntouched.phase {s t : State} (h : EngineUntouched s t) : t.phase = s.phase := by rw [h]

/-- Settles O39: the Engine's moves and a command's are listed, and any other step leaves the READ's fields alone. -/
theorem phaseOrder : Obligations.PhaseOrder := by
  intro s t h hr
  cases step_kind h with
  | engine turn h =>
    subst h
    exact ⟨engineStep_phase { s with agenda := s.agenda.tail }, fun _ hn => absurd turn hn⟩
  | dispatched v idle ha h =>
    refine ⟨?_, fun hb => absurd idle hb⟩
    have := (dispatch_cases h).phase
    simpa [idle] using this
  | untouched busy h ho =>
    refine ⟨by rw [h.phase]; exact phaseMoves_same _, fun _ _ => ?_⟩
    rw [h]
    exact ⟨rfl, rfl, rfl, rfl, rfl, rfl, rfl, rfl, rfl, rfl, rfl⟩
  | reset k ha h => exact absurd ⟨k, ha⟩ hr

/-! ### Results (R18, R19, R20, R93, R96) -/

/-- RAW and the timing registers are the same. -/
structure SampleKept (s t : State) : Prop where
  raw       : t.raw = s.raw
  waitTime  : t.waitTime = s.waitTime
  convTime  : t.convTime = s.convTime
  totalTime : t.totalTime = s.totalTime

/-- RESULT, RAW and the timing registers are the same. -/
structure ResultsKept (s t : State) : Prop extends SampleKept s t where
  result : t.result = s.result

theorem waitStep_resultsKept (s : State) : ResultsKept s (waitStep s) := by
  obtain e | e | ⟨-, e⟩ | ⟨-, e⟩ := waitStep_cases s <;> rw [e] <;> exact ⟨⟨rfl, rfl, rfl, rfl⟩, rfl⟩

theorem shiftStep_resultsKept (s : State) : ResultsKept s (shiftStep s) := by
  obtain ⟨u, hl, -, e | ⟨d, ⟨-, e⟩ | ⟨-, e⟩⟩⟩ := shiftStep_cases s <;> rw [e, hl] <;> exact ⟨⟨rfl, rfl, rfl, rfl⟩, rfl⟩

/-- The command in flight, if any, is over, and it succeeded. -/
def CompletedOk (t : State) : Prop := t.phase = .idle ∧ t.code = .ok ∧ t.valid = true

theorem trailStep_results (s : State) : ResultsKept s (trailStep s) ∨ CompletedOk (trailStep s) := by
  obtain ⟨u, hl, -, e | ⟨-, e⟩ | ⟨-, e⟩⟩ := trailStep_cases s
  · left; rw [e, hl]; exact ⟨⟨rfl, rfl, rfl, rfl⟩, rfl⟩
  · left; rw [e, hl]; exact ⟨⟨rfl, rfl, rfl, rfl⟩, rfl⟩
  · right; rw [e, finish_eq]; exact ⟨rfl, rfl, rfl⟩

/-- The Engine writes results with the last pulse of TRAIL only (R70, R73). -/
theorem engineStep_results (s : State) :
    ResultsKept s (engineStep s) ∨ s.phase = .trail ∧ CompletedOk (engineStep s) := by
  cases h : s.phase with
  | idle => left; simp only [engineStep, h]; exact ⟨⟨rfl, rfl, rfl, rfl⟩, rfl⟩
  | wait => left; rw [engineStep_wait h]; exact waitStep_resultsKept s
  | shift => left; rw [engineStep_shift h]; exact shiftStep_resultsKept s
  | trail => rw [engineStep_trail h]; exact (trailStep_results s).imp_right fun h => ⟨rfl, h⟩

theorem CommandCase.results {s t : State} (h : CommandCase s t) : ResultsKept s t ∨ SampleKept s t ∧ CompletedOk t := by
  cases h with
  | done v h => subst h; exact .inr ⟨⟨rfl, rfl, rfl, rfl⟩, rfl, rfl, rfl⟩
  | failed c _ h => subst h; exact .inl ⟨⟨rfl, rfl, rfl, rfl⟩, rfl⟩
  | accepted n _ h =>
    left
    obtain ⟨tr, u, rfl, e | e⟩ := accept_cases n s <;> rw [h, e] <;> exact ⟨⟨rfl, rfl, rfl, rfl⟩, rfl⟩

/-- A READ writes no result in the step of its CMD write. -/
theorem exec_read_resultsKept {n : Nat} {s t : State} (h : exec (.read n) s = .next t) : ResultsKept s t := by
  obtain rfl := Host.Outcome.next.inj h
  split
  · obtain ⟨tr, u, rfl, e | e⟩ := accept_cases n s <;> rw [e] <;> exact ⟨⟨rfl, rfl, rfl, rfl⟩, rfl⟩
  · exact ⟨⟨rfl, rfl, rfl, rfl⟩, rfl⟩

theorem dispatch_results {v : Word} {s t : State} (h : dispatch v s = .next t) :
    ResultsKept s t ∨
      SampleKept s t ∧ CompletedOk t ∧ ∃ i, decode v = .ok i ∧ ∀ n, i ≠ .read n := by
  unfold dispatch at h
  split at h
  · rename_i i hd
    cases i with
    | read n => exact .inl (exec_read_resultsKept h)
    | encode ch x g => exact (exec_cases h).results.imp_right fun ⟨hk, hc⟩ => ⟨hk, hc, _, hd, nofun⟩
    | decode n => exact (exec_cases h).results.imp_right fun ⟨hk, hc⟩ => ⟨hk, hc, _, hd, nofun⟩
  · obtain rfl := Host.Outcome.next.inj h
    exact .inl ⟨⟨rfl, rfl, rfl, rfl⟩, rfl⟩

theorem EngineUntouched.resultsKept {s t : State} (h : EngineUntouched s t) : ResultsKept s t := by
  rw [h]; exact ⟨⟨rfl, rfl, rfl, rfl⟩, rfl⟩

/-- The move taken off the agenda is no result. -/
theorem SampleKept.of_agenda {s t : State} {ms : List Move} (h : SampleKept { s with agenda := ms } t) : SampleKept s t :=
  { h with }

theorem ResultsKept.of_agenda {s t : State} {ms : List Move} (h : ResultsKept { s with agenda := ms } t) : ResultsKept s t :=
  { h with }

theorem SampleKept.not_changed {s t : State} (h : SampleKept s t) :
    ¬ (t.raw ≠ s.raw ∨ t.waitTime ≠ s.waitTime ∨ t.convTime ≠ s.convTime ∨ t.totalTime ≠ s.totalTime) := by
  simp [h.raw, h.waitTime, h.convTime, h.totalTime]

/-- Settles O40: results are written by the last pulse of a READ and by the CMD write of an ENCODE or DECODE. -/
theorem resultsChangeOnlyOnSuccess : Obligations.ResultsChangeOnlyOnSuccess := by
  intro s t h hr
  have kept (hk : ResultsKept s t) {P Q : Prop} : (t.result ≠ s.result → P) ∧
      (t.raw ≠ s.raw ∨ t.waitTime ≠ s.waitTime ∨ t.convTime ≠ s.convTime ∨ t.totalTime ≠ s.totalTime → Q) :=
    ⟨fun hne => absurd hk.result hne, fun hne => absurd hne hk.not_changed⟩
  cases step_kind h with
  | engine turn h =>
    obtain hk | ⟨hp, hi, hc, hv⟩ := engineStep_results { s with agenda := s.agenda.tail } <;> rw [← h] at *
    · exact kept hk.of_agenda
    · exact ⟨fun _ => ⟨hi, hc, hv, .inl ⟨hp, turn⟩⟩, fun _ => ⟨hp, turn, hi, hc, hv⟩⟩
  | dispatched v idle ha h =>
    obtain hk | ⟨hk, ⟨hi, hc, hv⟩, i, hd, hn⟩ := dispatch_results h
    · exact kept hk.of_agenda
    · exact ⟨fun _ => ⟨hi, hc, hv, .inr ⟨idle, v, i, ha, hd, hn⟩⟩, fun hne => absurd hne hk.of_agenda.not_changed⟩
  | untouched busy h ho => exact kept h.resultsKept
  | reset k ha h => exact absurd ⟨k, ha⟩ hr

/-! ### VALID and OVERRUN (R24, R25) -/

/-- A command is over and VALID, or one is in flight and VALID is as it was; OVERRUN is as it was. -/
def FlagsStep (s t : State) : Prop :=
  (t.phase = .idle ∧ t.valid = true ∨ t.phase ≠ .idle ∧ t.valid = s.valid) ∧ t.overrun = s.overrun

theorem EngineKeeps.flagsStep {s t : State} (h : EngineKeeps s t) : FlagsStep s t := by
  refine ⟨?_, h.overrun⟩
  by_cases hi : t.phase = .idle
  · exact .inl ⟨hi, h.doneValid hi⟩
  · exact .inr ⟨hi, (h.busyCode hi).2⟩

theorem CommandCase.flagsStep {s t : State} (h : CommandCase s t) : FlagsStep s t := by
  unfold FlagsStep
  cases h with
  | done v h => subst h; simp
  | failed c _ h => subst h; simp
  | accepted n _ h => obtain ⟨tr, u, rfl, e | e⟩ := accept_cases n s <;> rw [h, e] <;> simp

/-- What a step that is no reset does with `valid` and `overrun`. -/
theorem step_flags {s t : State} (h : step s = .next t) (hr : ¬ ResetTurn s) :
    (s.phase ≠ .idle ∨ CmdWriteTurn s) ∧ FlagsStep s t ∨
      (CmdWriteTurn s → s.phase ≠ .idle) ∧ t.phase = s.phase ∧ t.valid = s.valid ∧
        (t.overrun = s.overrun ∨ t.overrun = true ∧ CmdWriteTurn s) := by
  cases step_kind h with
  | engine turn h =>
    obtain ⟨-, hbusy, -⟩ := turn
    subst h
    exact .inl ⟨.inl hbusy, (engineStep_keeps (s := { s with agenda := s.agenda.tail }) hbusy).flagsStep⟩
  | dispatched v idle ha h => exact .inl ⟨.inr ⟨v, ha⟩, (dispatch_cases h).flagsStep⟩
  | untouched busy h ho => exact .inr ⟨busy, h.phase, by rw [h], ho⟩
  | reset k ha h => exact absurd ⟨k, ha⟩ hr

/-- Settles O48: a command ends, goes on, or the step is another agent's. -/
theorem stickyValidAndOverrun : Obligations.StickyValidAndOverrun := by
  intro s t h hr
  obtain ⟨hwhy, ⟨hi, hv⟩ | ⟨hb, hv⟩, ho⟩ | ⟨busy, hp, hv, ho⟩ := step_flags h hr
  · exact ⟨fun _ => hv, fun h => ho.trans h, fun _ _ => hv, fun _ _ _ _ => hv, fun _ _ => ⟨hi, hwhy⟩,
      fun hf ht => by simp [ho, hf] at ht⟩
  · exact ⟨fun h => hv.trans h, fun h => ho.trans h, fun _ hi => absurd hi hb, fun _ _ _ hi => absurd hi hb,
      fun hf ht => by simp [hv, hf] at ht, fun hf ht => by simp [ho, hf] at ht⟩
  · refine ⟨fun h => hv.trans h, fun h => ?_, fun hb hi => absurd (hp.symm.trans hi) hb,
      fun v hi ha _ => absurd hi (busy ⟨v, ha⟩), fun hf ht => by simp [hv, hf] at ht, fun hf ht => ?_⟩
    · obtain ho | ⟨ho, -⟩ := ho
      · exact ho.trans h
      · exact ho
    · obtain ho | ⟨-, hw⟩ := ho
      · simp [ho, hf] at ht
      · exact ⟨busy hw, hw⟩

/-! ### DESYNC and `latched` (R26, R27, R101) -/

/-- DESYNC is kept, and where it is set after the step `latched` is Unknown then, if R29 held of the two before it. -/
structure DesyncSticky (s t : State) : Prop where
  kept    : s.desync = true → t.desync = true
  unknown : (s.desync = true → s.latched = none) → t.desync = true → t.latched = none

theorem DesyncSticky.of_same {s t : State} (hd : t.desync = s.desync) (hl : t.latched = s.latched) : DesyncSticky s t :=
  ⟨hd.trans, fun h k => hl.trans (h (hd.symm.trans k))⟩

theorem DesyncSticky.of_unknown {s t : State} (hd : s.desync = true → t.desync = true) (hl : t.latched = none) :
    DesyncSticky s t :=
  ⟨hd, fun _ _ => hl⟩

theorem waitStep_desyncSticky (s : State) : DesyncSticky s (waitStep s) := by
  obtain e | e | ⟨-, e⟩ | ⟨-, e⟩ := waitStep_cases s <;> rw [e] <;> exact .of_same rfl rfl

theorem shiftStep_desyncSticky (s : State) : DesyncSticky s (shiftStep s) := by
  obtain ⟨u, hl, -, e | ⟨d, ⟨-, e⟩ | ⟨-, e⟩⟩⟩ := shiftStep_cases s <;> rw [e]
  · exact .of_unknown (fun _ => rfl) rfl
  · rw [hl]; exact .of_same rfl rfl
  · rw [hl]; exact .of_same rfl rfl

/-- `UpdateModes()` latches nothing while DESYNC is set (R74, R101). -/
theorem trailStep_desyncSticky (s : State) : DesyncSticky s (trailStep s) := by
  obtain ⟨u, hl, -, e | ⟨-, e⟩ | ⟨-, e⟩⟩ := trailStep_cases s <;> rw [e]
  · exact .of_unknown (fun _ => rfl) rfl
  · rw [hl]; exact .of_same rfl rfl
  · rw [finish_eq, takeConv_eq, hl]
    exact ⟨id, fun _ hd => if_pos hd⟩

theorem engineStep_desyncSticky (s : State) : DesyncSticky s (engineStep s) := by
  unfold engineStep
  split
  · exact .of_same rfl rfl
  · exact waitStep_desyncSticky s
  · exact shiftStep_desyncSticky s
  · exact trailStep_desyncSticky s

theorem CommandCase.desyncSticky {s t : State} (h : CommandCase s t) : DesyncSticky s t := by
  cases h with
  | done v h => subst h; exact .of_same rfl rfl
  | failed c _ h => subst h; exact .of_same rfl rfl
  | accepted n _ h =>
    obtain ⟨tr, u, rfl, e | e⟩ := accept_cases n s <;> rw [h, e]
    · exact .of_same rfl rfl
    · exact .of_unknown (fun _ => rfl) rfl

theorem DesyncSticky.of_agenda {s t : State} {ms : List Move} (h : DesyncSticky { s with agenda := ms } t) : DesyncSticky s t :=
  { h with }

theorem doReset_er_desync {s : State} (h : s.desync = true) : (doReset .er s).desync = true := by
  simp [doReset_eq, desyncAfterReset, h]

theorem doReset_latched (k : ResetKind) (s : State) : (doReset k s).latched = none := by
  rw [doReset_eq]
  rfl

/-- Settles O49: no step but a reset clears DESYNC, an engine reset keeps it, and every reset leaves `latched` Unknown. -/
theorem desyncOnlyClearedByPowerOn : Obligations.DesyncOnlyClearedByPowerOn := by
  intro s t h
  have sticky (hk : DesyncSticky s t) {P : Prop} : (P → s.desync = true → t.desync = true) ∧
      ((s.desync = true → s.latched = none) → t.desync = true → t.latched = none) := ⟨fun _ => hk.kept, hk.unknown⟩
  cases step_kind h with
  | engine turn h => subst h; exact sticky (engineStep_desyncSticky _).of_agenda
  | dispatched v idle ha h => exact sticky (dispatch_cases h).desyncSticky.of_agenda
  | untouched busy h ho => exact sticky (by rw [h]; exact .of_same rfl rfl)
  | reset k ha h =>
    subst h
    refine ⟨fun hpor hd => ?_, fun _ _ => doReset_latched k _⟩
    cases k with
    | por => exact absurd ha hpor
    | er => exact doReset_er_desync hd

/-! ### The absolute time (R22) -/

/-- `s` with its clock later by `δ` and the timestamps and the trace given: what `TimeShifted` allows of a state. -/
def later (δ c r v : Stamp) (tr : List Event) (s : State) : State :=
  { s with ts := s.ts + δ, tCmd := c, tReady := r, tConv := v, trace := tr }

@[simp] theorem later_tCmd (δ c r v : Stamp) (tr : List Event) (s : State) : (later δ c r v tr s).tCmd = c := rfl
@[simp] theorem later_params (δ c r v : Stamp) (tr : List Event) (s : State) :
    (later δ c r v tr s).params = s.params := rfl

theorem timeShifted_iff {δ : Stamp} {s u : State} :
    TimeShifted δ s u ↔ ∃ c r v tr, u = later δ c r v tr s ∧ (s.phase ≠ .idle → c = s.tCmd + δ) ∧
      (s.phase = .shift ∨ s.phase = .trail → r = s.tReady + δ) := by
  constructor
  · rintro ⟨e, hc, hr⟩
    exact ⟨u.tCmd, u.tReady, u.tConv, u.trace, e, hc, hr⟩
  · rintro ⟨c, r, v, tr, rfl, hc, hr⟩
    exact ⟨rfl, hc, hr⟩

/-- Two primitives gave the same answer and left states that are alike. -/
def SameAnswer {α : Type} (δ : Stamp) (a b : α × State) : Prop :=
  ∃ o s u, a = (o, s) ∧ b = (o, u) ∧ TimeShifted δ s u

section
variable {δ : Stamp} {s u : State}

/-! The primitives read no timestamp (R57, R58, R59). -/

theorem pinWrite_sameAnswer (b : Level) (h : TimeShifted δ s u) : SameAnswer δ (pinWrite b s) (pinWrite b u) := by
  obtain ⟨c, r, v, tr, rfl, hc, hr⟩ := timeShifted_iff.1 h
  exact ⟨_, _, _, rfl, rfl, rfl, hc, hr⟩

theorem noSample_sameAnswer (h : TimeShifted δ s u) : SameAnswer δ (noSample s) (noSample u) := ⟨_, _, _, rfl, rfl, h⟩

theorem pinRead_sameAnswer (h : TimeShifted δ s u) : SameAnswer δ (pinRead s) (pinRead u) := by
  obtain ⟨c, r, v, tr, rfl, hc, hr⟩ := timeShifted_iff.1 h
  obtain ha | ha := answer_cases (nextAnswer s)
  · exact ⟨_, _, _, pinRead_ok ha, pinRead_ok (s := later δ c r v tr s) ha, rfl, hc, hr⟩
  · exact ⟨_, _, _, pinRead_fault ha, pinRead_fault (s := later δ c r v tr s) ha, rfl, hc, hr⟩

theorem pinWrite_timeShifted (b : Level) (h : TimeShifted δ s u) : TimeShifted δ (pinWrite b s).2 (pinWrite b u).2 := by
  obtain ⟨_, _, _, es, eu, k⟩ := pinWrite_sameAnswer b h
  rw [es, eu]
  exact k

theorem pulse_sameAnswer {α : Type} {high : State → Option α × State}
    (hh : ∀ {s u}, TimeShifted δ s u → SameAnswer δ (high s) (high u)) (h : TimeShifted δ s u) :
    SameAnswer δ (pulse high s) (pulse high u) := by
  obtain ⟨a, s1, u1, es, eu, k⟩ := pinWrite_sameAnswer true h
  simp only [pulse, es, eu]
  cases a with
  | fault => exact ⟨_, _, _, rfl, rfl, pinWrite_timeShifted false k⟩
  | ok =>
    obtain ⟨o, s2, u2, es, eu, k⟩ := hh k
    simp only [es, eu]
    cases o with
    | none => exact ⟨_, _, _, rfl, rfl, pinWrite_timeShifted false k⟩
    | some d =>
      obtain ⟨a, s3, u3, es, eu, k⟩ := pinWrite_sameAnswer false k
      simp only [es, eu]
      cases a <;> exact ⟨_, _, _, rfl, rfl, k⟩

/-! At IDLE no timestamp is read again, so what a completed command leaves need be alike elsewhere only. -/

theorem later_timeShifted_of_idle {c r v : Stamp} {tr : List Event} (hi : s.phase = .idle) :
    TimeShifted δ s (later δ c r v tr s) :=
  timeShifted_iff.2 ⟨c, r, v, tr, rfl, by simp [hi], by simp [hi]⟩

theorem complete_timeShifted (c : Code) (h : TimeShifted δ s u) : TimeShifted δ (complete c s) (complete c u) := by
  obtain ⟨_, _, _, _, rfl, -⟩ := timeShifted_iff.1 h
  exact later_timeShifted_of_idle rfl

theorem busFaultDesync_timeShifted (h : TimeShifted δ s u) : TimeShifted δ (busFaultDesync s) (busFaultDesync u) := by
  obtain ⟨_, _, _, _, rfl, -⟩ := timeShifted_iff.1 h
  exact later_timeShifted_of_idle rfl

/-! Timestamps are read later by `δ`, and a duration is the same (R85, R88). -/

theorem duration_add_add (a b δ : Stamp) : duration (a + δ) (b + δ) = duration a b := by
  simp [duration]

theorem clockAdvance_later (k : Nat) (δ c r v : Stamp) (tr : List Event) (s : State) :
    clockAdvance k (later δ c r v tr s) = later δ c r v tr (clockAdvance k s) := by
  simp only [clockAdvance, later, add_right_comm]

theorem clockStep_later (δ c r v : Stamp) (tr : List Event) (s : State) :
    clockStep (later δ c r v tr s) = later δ c r v tr (clockStep s) := by
  simp only [clockStep, clockAdvance_later]
  rfl

theorem clockAdvance_timeShifted (k : Nat) (h : TimeShifted δ s u) : TimeShifted δ (clockAdvance k s) (clockAdvance k u) := by
  obtain ⟨c, r, v, tr, rfl, hc, hr⟩ := timeShifted_iff.1 h
  rw [clockAdvance_later]
  exact ⟨rfl, hc, hr⟩

theorem clockStep_timeShifted (h : TimeShifted δ s u) : TimeShifted δ (clockStep s) (clockStep u) := by
  obtain ⟨c, r, v, tr, rfl, hc, hr⟩ := timeShifted_iff.1 h
  rw [clockStep_later]
  exact ⟨rfl, hc, hr⟩

theorem emit_timeShifted (e e' : Event) (h : TimeShifted δ s u) : TimeShifted δ (emit e s) (emit e' u) := by
  obtain ⟨c, r, v, tr, rfl, hc, hr⟩ := timeShifted_iff.1 h
  exact ⟨rfl, hc, hr⟩

theorem TimeShifted.ts (h : TimeShifted δ s u) : u.ts = s.ts + δ := by rw [h.1]

theorem tsRead_timeShifted (h : TimeShifted δ s u) :
    ∃ t s' u', tsRead s = (t, s') ∧ tsRead u = (t + δ, u') ∧ TimeShifted δ s' u' ∧ s'.phase = s.phase := by
  have k := clockStep_timeShifted h
  refine ⟨_, _, emit (.ts (clockStep u).ts) (clockStep u), rfl, ?_, emit_timeShifted _ _ k, by simp⟩
  rw [← k.ts]
  rfl

/-! ### The engine's steps and the commands, a clock later by `δ` -/

theorem pinRead_phase {o : Option Level} (e : pinRead s = (o, u)) : u.phase = s.phase := by
  have h := pinRead_lines s
  rw [e] at h
  exact h.phase

theorem pulse_phase {α : Type} {high : State → Option α × State} (hh : ∀ u, LinesOnly u (high u).2) {o : Option α}
    (e : pulse high s = (o, u)) : u.phase = s.phase := by
  obtain ⟨h, -⟩ := pulse_lines hh s
  rw [e] at h
  exact h.phase

/-- The poll compares the time since `t_cmd`, which is later by `δ` too (R65). -/
theorem waitStep_timeShifted (hp : s.phase = .wait) (h : TimeShifted δ s u) : TimeShifted δ (waitStep s) (waitStep u) := by
  obtain ⟨o, s1, u1, es, eu, k⟩ := pinRead_sameAnswer h
  have hs1 : s1.phase = .wait := (pinRead_phase es).trans hp
  simp only [waitStep, es, eu]
  cases o with
  | none => exact complete_timeShifted _ k
  | some d =>
    obtain ⟨t, s2, u2, es, eu, k, hs2⟩ := tsRead_timeShifted k
    have hbusy : s2.phase ≠ .idle := by simp [hs2, hs1]
    obtain ⟨c, r, v, tr, rfl, hc, -⟩ := timeShifted_iff.1 k
    obtain rfl := hc hbusy
    simp only [es, eu, later_params, later_tCmd, add_sub_add_right_eq_sub]
    split
    · exact ⟨rfl, fun _ => rfl, fun _ => rfl⟩
    · split
      · exact complete_timeShifted _ k
      · exact k

theorem shiftStep_last {d : Level} (e : pulse pinRead s = (some d, u)) (h : u.bitCount + 1 = 24) :
    shiftStep s = { u with shift := shiftIn u.shift d, bitCount := u.bitCount + 1, trailCount := 0, phase := .trail } := by
  simp only [shiftStep, e, if_pos h]

theorem shiftStep_more {d : Level} (e : pulse pinRead s = (some d, u)) (h : ¬ u.bitCount + 1 = 24) :
    shiftStep s = { u with shift := shiftIn u.shift d, bitCount := u.bitCount + 1 } := by
  simp only [shiftStep, e, if_neg h]

theorem shiftStep_timeShifted (hp : s.phase = .shift) (h : TimeShifted δ s u) :
    TimeShifted δ (shiftStep s) (shiftStep u) := by
  obtain ⟨o, s1, u1, es, eu, k⟩ := pulse_sameAnswer pinRead_sameAnswer h
  have hs1 : s1.phase = .shift := (pulse_phase pinRead_lines es).trans hp
  obtain ⟨c, r, v, tr, rfl, hc, hr⟩ := timeShifted_iff.1 k
  cases o with
  | none =>
    simp only [shiftStep, es, eu]
    exact busFaultDesync_timeShifted k
  | some d =>
    by_cases hn : s1.bitCount + 1 = 24
    · rw [shiftStep_last es hn, shiftStep_last eu hn]
      exact ⟨rfl, fun _ => hc (by simp [hs1]), fun _ => hr (.inl hs1)⟩
    · rw [shiftStep_more es hn, shiftStep_more eu hn]
      exact ⟨rfl, hc, hr⟩

@[simp] theorem takeConv_tCmd (s : State) : (takeConv s).tCmd = s.tCmd := by rw [takeConv_eq]
@[simp] theorem takeConv_tReady (s : State) : (takeConv s).tReady = s.tReady := by rw [takeConv_eq]

theorem takeConv_later (δ c r v : Stamp) (tr : List Event) (s : State) : ∃ tr',
    takeConv (later δ c r v tr s) = later δ c r ((takeConv s).tConv + δ) tr' (takeConv s) := by
  rw [takeConv_eq, takeConv_eq]
  simp only [later, nextTicks, add_right_comm _ δ]
  exact ⟨_, rfl⟩

/-- The registers hold durations between timestamps that are all later by `δ` (R73, R88, R89, R90). -/
theorem finish_timeShifted {c r v : Stamp} (tr : List Event) (hc : c = s.tCmd + δ) (hr : r = s.tReady + δ)
    (hv : v = s.tConv + δ) : TimeShifted δ (finish s) (finish (later δ c r v tr s)) := by
  subst hc hr hv
  rw [finish_eq, finish_eq]
  refine ⟨?_, by simp, by simp⟩
  simp only [later, nextTicks, add_right_comm _ δ, duration_add_add]
  rfl

theorem finish_takeConv_timeShifted (δ v : Stamp) (tr : List Event) (s : State) :
    TimeShifted δ (finish (takeConv s)) (finish (takeConv (later δ (s.tCmd + δ) (s.tReady + δ) v tr s))) := by
  obtain ⟨tr', e⟩ := takeConv_later δ (s.tCmd + δ) (s.tReady + δ) v tr s
  rw [e]
  exact finish_timeShifted tr' (by rw [takeConv_tCmd]) (by rw [takeConv_tReady]) rfl

theorem trailStep_last {x : Unit} (e : pulse noSample s = (some x, u))
    (h : u.trailCount + 1 = u.curN.toNat - 24) :
    trailStep s = finish (takeConv { u with trailCount := u.trailCount + 1 }) := by
  simp only [trailStep, e, if_pos h]

theorem trailStep_more {x : Unit} (e : pulse noSample s = (some x, u))
    (h : ¬ u.trailCount + 1 = u.curN.toNat - 24) : trailStep s = { u with trailCount := u.trailCount + 1 } := by
  simp only [trailStep, e, if_neg h]

theorem trailStep_timeShifted (hp : s.phase = .trail) (h : TimeShifted δ s u) :
    TimeShifted δ (trailStep s) (trailStep u) := by
  obtain ⟨o, s1, u1, es, eu, k⟩ := pulse_sameAnswer noSample_sameAnswer h
  have hs1 : s1.phase = .trail := (pulse_phase noSample_lines es).trans hp
  obtain ⟨c, r, v, tr, rfl, hc, hr⟩ := timeShifted_iff.1 k
  obtain rfl := hc (by simp [hs1])
  obtain rfl := hr (.inr hs1)
  cases o with
  | none =>
    simp only [trailStep, es, eu]
    exact busFaultDesync_timeShifted k
  | some _ =>
    by_cases hn : s1.trailCount + 1 = s1.curN.toNat - 24
    · rw [trailStep_last es hn, trailStep_last eu hn]
      exact finish_takeConv_timeShifted δ v tr { s1 with trailCount := s1.trailCount + 1 }
    · rw [trailStep_more es hn, trailStep_more eu hn]
      exact ⟨rfl, fun _ => rfl, fun _ => rfl⟩

theorem engineStep_timeShifted (h : TimeShifted δ s u) : TimeShifted δ (engineStep s) (engineStep u) := by
  have hpu : u.phase = s.phase := by rw [h.1]
  cases hp : s.phase with
  | idle => simpa [engineStep, hpu, hp] using h
  | wait => rw [engineStep_wait hp, engineStep_wait (hpu.trans hp)]; exact waitStep_timeShifted hp h
  | shift => rw [engineStep_shift hp, engineStep_shift (hpu.trans hp)]; exact shiftStep_timeShifted hp h
  | trail => rw [engineStep_trail hp, engineStep_trail (hpu.trans hp)]; exact trailStep_timeShifted hp h

/-- `t_cmd` is taken from the later clock (R64). -/
theorem accept_timeShifted (n : Nat) (h : TimeShifted δ s u) : TimeShifted δ (accept n s) (accept n u) := by
  have hfields : TimeShifted δ (acceptFields n s) (acceptFields n u) := by
    obtain ⟨c, r, v, tr, rfl, hc, hr⟩ := timeShifted_iff.1 h
    exact ⟨rfl, hc, hr⟩
  obtain ⟨t, s1, u1, es, eu, k, -⟩ := tsRead_timeShifted hfields
  have hwait : TimeShifted δ { s1 with tCmd := t, phase := .wait } { u1 with tCmd := t + δ, phase := .wait } := by
    obtain ⟨c, r, v, tr, rfl, -⟩ := timeShifted_iff.1 k
    exact ⟨rfl, fun _ => rfl, by simp⟩
  obtain ⟨a, s2, u2, es2, eu2, k2⟩ := pinWrite_sameAnswer false hwait
  simp only [accept, es, eu, es2, eu2]
  cases a with
  | ok => exact k2
  | fault => exact busFaultDesync_timeShifted k2

theorem completeWith_timeShifted (x : Except Code Word) (h : TimeShifted δ s u) :
    TimeShifted δ (completeWith x s) (completeWith x u) := by
  obtain ⟨c, r, v, tr, rfl, hc, hr⟩ := timeShifted_iff.1 h
  cases x <;> exact later_timeShifted_of_idle rfl

/-- Two outcomes are alike, or the same stop. -/
def OutcomesAlike (a b : Host.Outcome State Fault Refusal) : Prop :=
  OutcomesAgree (fun t v => ∃ δ', TimeShifted δ' t v) a b

theorem outcomesAlike_next {t v : State} (h : TimeShifted δ t v) : OutcomesAlike (.next t) (.next v) := ⟨δ, h⟩

theorem exec_alike (i : Instr) (h : TimeShifted δ s u) : OutcomesAlike (exec i s) (exec i u) := by
  cases i with
  | encode ch x g => exact outcomesAlike_next (completeWith_timeShifted _ h)
  | decode n => exact outcomesAlike_next (completeWith_timeShifted _ h)
  | read n =>
    refine outcomesAlike_next (δ := δ) ?_
    split
    · exact accept_timeShifted n h
    · exact complete_timeShifted _ h

theorem dispatch_alike (w : Word) (h : TimeShifted δ s u) : OutcomesAlike (dispatch w s) (dispatch w u) := by
  unfold dispatch
  split
  · exact exec_alike _ h
  · exact outcomesAlike_next (complete_timeShifted _ h)

theorem TimeShifted.busy (h : TimeShifted δ s u) : u.busy = s.busy := by
  rw [h.1]
  rfl

theorem regWrite_alike (idx : RegIndex) (w : Word) (h : TimeShifted δ s u) :
    OutcomesAlike (regWrite idx w s) (regWrite idx w u) := by
  unfold regWrite
  rw [h.busy]
  split
  · exact outcomesAlike_next h
  · split
    · refine outcomesAlike_next (δ := δ) ?_
      obtain ⟨c, r, v, tr, rfl, hc, hr⟩ := timeShifted_iff.1 h
      exact ⟨rfl, hc, hr⟩
    · exact dispatch_alike w h

/-- The word the host reads is the same: no register holds a timestamp (R31, R32). -/
theorem regRead_timeShifted (idx : RegIndex) (h : TimeShifted δ s u) : regRead idx u = regRead idx s := by
  rw [h.1]
  rfl

theorem hostRead_timeShifted (idx : RegIndex) (h : TimeShifted δ s u) : TimeShifted δ (hostRead idx s) (hostRead idx u) := by
  obtain ⟨c, r, v, tr, rfl, hc, hr⟩ := timeShifted_iff.1 h
  exact ⟨rfl, hc, hr⟩

theorem TimeShifted.withAgenda (ms : List Move) (h : TimeShifted δ s u) :
    TimeShifted δ { s with agenda := ms } { u with agenda := ms } := by
  obtain ⟨c, r, v, tr, rfl, hc, hr⟩ := timeShifted_iff.1 h
  exact ⟨rfl, hc, hr⟩

theorem TimeShifted.agenda (h : TimeShifted δ s u) : u.agenda = s.agenda := by rw [h.1]

theorem waitIdleStep_timeShifted (h : TimeShifted δ s u) : TimeShifted δ (waitIdleStep s) (waitIdleStep u) := by
  unfold waitIdleStep
  rw [h.busy, h.agenda]
  split
  · exact (hostRead_timeShifted 1 h).withAgenda _
  · exact hostRead_timeShifted 1 h

/-- A reset gives both machines the same clock (R112, log 10). -/
theorem doReset_timeShifted (k : ResetKind) (h : TimeShifted δ s u) : TimeShifted 0 (doReset k s) (doReset k u) := by
  obtain ⟨c, r, v, tr, rfl, -⟩ := timeShifted_iff.1 h
  have e : doReset k (later δ c r v tr s) = doReset k s := rfl
  rw [e]
  exact ⟨by simp, by simp, by simp⟩

theorem perform_alike (m : Move) (h : TimeShifted δ s u) : OutcomesAlike (perform m s) (perform m u) := by
  cases m with
  | regRead idx => exact outcomesAlike_next (hostRead_timeShifted idx h)
  | regWrite idx v => exact regWrite_alike idx v h
  | waitIdle => exact outcomesAlike_next (waitIdleStep_timeShifted h)
  | engine =>
    simp only [perform, h.busy]
    split
    · exact outcomesAlike_next (engineStep_timeShifted h)
    · exact rfl
  | clock k => exact outcomesAlike_next (clockAdvance_timeShifted k h)
  | reset k => exact outcomesAlike_next (doReset_timeShifted k h)

theorem defaultMove_timeShifted (h : TimeShifted δ s u) : TimeShifted δ (defaultMove s) (defaultMove u) := by
  unfold defaultMove
  rw [h.busy]
  split
  · exact engineStep_timeShifted h
  · exact clockStep_timeShifted h

end

/-- Settles O55: both machines take the same move, and each move keeps them alike. -/
theorem absoluteTimeUnseen : Obligations.AbsoluteTimeUnseen := by
  intro δ s u h
  have hparams : u.params = s.params := by rw [h.1]
  by_cases hp : s.params.pinsOk = true
  · rw [step_pinsOk hp, step_pinsOk (hparams ▸ hp), h.agenda]
    split
    · exact outcomesAlike_next (defaultMove_timeShifted h)
    · exact perform_alike _ (h.withAgenda _)
  · rw [step_illFormed hp, step_illFormed (hparams ▸ hp)]
    rfl

end Sys2Proof.Machine
end

section
/-! The statements of `20_memory.md`: what a write to the register port does (R36, R37, R38) and what a read of it returns (R35). -/

namespace Sys2Proof.Machine

/-! ### Writes: ignored, dropped with OVERRUN, or dispatched (R36, R37, R38) -/

theorem regWrite_of_ne {idx : RegIndex} (hi : idx ≠ 0) (v : Word) (s : State) : regWrite idx v s = .next s := if_pos hi

theorem regWrite_busy {s : State} (hb : s.phase ≠ .idle) (v : Word) :
    regWrite 0 v s = .next { s with overrun := true } := by
  simp [regWrite, (busy_iff s).2 hb]

theorem regWrite_idle {s : State} (hi : s.phase = .idle) (v : Word) : regWrite 0 v s = dispatch v s := by
  simp [regWrite, (busy_false_iff s).2 hi]

theorem dispatch_ok {v : Word} {i : Instr} (hd : decode v = .ok i) (s : State) : dispatch v s = exec i s := by
  simp only [dispatch, hd]

/-- A step whose move is the agenda's first is that move (R6). -/
theorem step_cons {s : State} {m : Move} {rest : List Move} (hp : s.params.pinsOk = true) (ha : s.agenda = m :: rest) :
    step s = perform m { s with agenda := rest } := by
  rw [step_pinsOk hp, ha]

theorem step_regWrite {s : State} {idx : RegIndex} {v : Word} {rest : List Move} (hp : s.params.pinsOk = true)
    (ha : s.agenda = .regWrite idx v :: rest) : step s = regWrite idx v { s with agenda := rest } :=
  step_cons hp ha

/-- Settles O6: while IDLE the write is dispatched, and a word that decodes is dispatched to its command. -/
theorem commandStepRunsDecoded : Obligations.CommandStepRunsDecoded := by
  intro s v rest i hp hi ha hd
  calc step s = regWrite 0 v { s with agenda := rest } := step_regWrite hp ha
    _ = dispatch v { s with agenda := rest } := regWrite_idle (s := { s with agenda := rest }) hi v
    _ = exec i { s with agenda := rest } := dispatch_ok hd _

/-- A word of 32 bits is its own CMD word. -/
theorem tableWord_of_lt {w : Nat} (hw : w < 2 ^ 32) : tableWord 32 w = BitVec.ofNat 32 w := by
  rw [tableWord, Nat.mod_eq_of_lt hw]

/-- Settles O7: `withFetchWord` leaves the engine IDLE with the CMD write first on the agenda, so O6 applies. -/
theorem fetchWordRuns : Obligations.FetchWordRuns := by
  intro s w i hp hw hd
  exact commandStepRunsDecoded (s.withFetchWord 32 w) (tableWord 32 w) s.agenda i hp rfl rfl (by rw [tableWord_of_lt hw, hd])

/-- Settles O9: the write while busy is dropped before its word is decoded. -/
theorem writeWhileBusyIsDropped : Obligations.WriteWhileBusyIsDropped := by
  intro s v rest hp hb ha
  exact (step_regWrite hp ha).trans (regWrite_busy (s := { s with agenda := rest }) hb v)

/-- Settles O10: the index is tested before BUSY and the word are. -/
theorem writeToOtherIndexIgnored : Obligations.WriteToOtherIndexIgnored := by
  intro s idx v rest hp hi ha
  exact (step_regWrite hp ha).trans (regWrite_of_ne hi v _)

/-! ### Reads (R35) -/

/-- The indices without a register read 0 (R31). -/
theorem regRead_unnamed {idx : RegIndex} (h : 7 ≤ idx.toNat) (s : State) : regRead idx s = 0 := by
  unfold regRead
  split
  case h_7 => rfl
  all_goals omega

/-- A read depends on nothing that the other agents' steps change, OVERRUN apart (R32, R35). -/
theorem EngineUntouched.regRead {s t : State} (h : EngineUntouched s t) (ho : t.overrun = s.overrun) (idx : RegIndex) :
    regRead idx t = regRead idx s := by
  rw [h, ho]
  rfl

/-- Settles O11: the register map row by row, the step of a read, and the steps between two reads leaving the engine untouched. -/
theorem registerReads : Obligations.RegisterReads := by
  intro s
  refine ⟨⟨rfl, rfl, rfl, rfl, rfl, rfl, rfl, fun idx h => regRead_unnamed h s⟩, fun idx rest hp ha => step_cons hp ha,
    fun idx idx' => ⟨?_, ?_, fun k => ?_⟩⟩
  · exact EngineUntouched.regRead (t := hostRead idx' s) rfl rfl idx
  · exact EngineUntouched.regRead (t := clockStep s) rfl rfl idx
  · exact EngineUntouched.regRead (t := clockAdvance k s) rfl rfl idx

end Sys2Proof.Machine
end

section
/-! The statements of `30_encoding.md`: the command word, its decoder and the assembler (R47–R54), the dispatch of a reserved
word (R52), and the host statements (R55). -/

namespace Sys2Proof

/-! ### The fields of a word (R47) -/

/-- A word is its three fields. -/
theorem fields_append (w : Word) : rsvField w ++ opField w ++ argField w = w := by
  unfold rsvField opField argField
  rw [BitVec.extractLsb'_append_extractLsb'_eq_extractLsb' (show 8 = 5 + 3 from rfl),
    BitVec.extractLsb'_append_extractLsb'_eq_extractLsb' (show 5 = 0 + 5 from rfl)]
  exact BitVec.extractLsb'_eq_self

theorem encode_fields (i : Instr) : rsvField (encode i) = 0 ∧ opField (encode i) = i.opcode ∧ argField (encode i) = i.arg :=
  Laws.Encoding.fields_of_concat _ _

/-- RSV is 0 in the words below 2^8. -/
theorem rsvField_eq_zero_iff (w : Word) : rsvField w = 0 ↔ w.toNat < 256 := by
  rw [← BitVec.toNat_inj, rsvField, BitVec.extractLsb'_toNat, Nat.shiftRight_eq_div_pow]
  simp only [BitVec.ofNat_eq_ofNat, BitVec.toNat_ofNat]
  omega

theorem opField_toNat (w : Word) : (opField w).toNat = w.toNat / 32 % 8 := by
  simp only [opField, BitVec.extractLsb'_toNat, Nat.shiftRight_eq_div_pow]

/-- A number in 0..31 is what ARG reads back as (R49). -/
theorem operand_toNat {n : Nat} (hn : n < 32) : (BitVec.ofNat 5 n).toNat = n := Nat.mod_eq_of_lt hn

/-! ### The operand field of ENCODE (R50) -/

theorem channelOfBit_bit (ch : Channel) : channelOfBit (ch.bit.getLsbD 0) = ch := by cases ch <;> rfl

theorem bit_channelOfBit (b : Bool) : (channelOfBit b).bit = BitVec.ofBool b := by cases b <;> rfl

theorem gainOfBits_bits (g : GainField) : gainOfBits g.bits = g := by cases g <;> rfl

theorem bits_gainOfBits : ∀ b : BitVec 2, (gainOfBits b).bits = b := by decide

/-- A mode code reads back as the three parts it was made of. -/
theorem encodeOperands_modeCode (ch : Channel) (x : BitVec 2) (g : GainField) :
    encodeOperands (modeCode ch x g) = .encode ch x g := by
  have hch : (modeCode ch x g).getLsbD 4 = ch.bit.getLsbD 0 := by
    simp only [modeCode, BitVec.getLsbD_append]; rfl
  have hx : (modeCode ch x g).extractLsb' 2 2 = x := by
    rw [modeCode, BitVec.extractLsb'_append_eq_of_le (Nat.le_refl 2)]
    exact BitVec.extractLsb'_append_eq_right
  have hg : (modeCode ch x g).extractLsb' 0 2 = g.bits := BitVec.extractLsb'_append_eq_right
  rw [encodeOperands, hch, hx, hg, channelOfBit_bit, gainOfBits_bits]

/-- Every operand field is the mode code of its three parts. -/
theorem arg_encodeOperands (a : BitVec 5) : (encodeOperands a).arg = a := by
  have hbit : BitVec.ofBool (a.getLsbD 4) = a.extractLsb' 4 1 := by
    ext i hi
    obtain rfl : i = 0 := by omega
    simp
  rw [encodeOperands, Instr.arg, modeCode, bit_channelOfBit, bits_gainOfBits, hbit,
    BitVec.extractLsb'_append_extractLsb'_eq_extractLsb' (show 4 = 2 + 2 from rfl),
    BitVec.extractLsb'_append_extractLsb'_eq_extractLsb' (show 2 = 0 + 2 from rfl)]
  exact BitVec.extractLsb'_eq_self

/-! ### The decoder (R48–R52) -/

theorem decode_of_rsv_ne {w : Word} (hr : rsvField w ≠ 0) : decode w = .error .reservedBits := if_pos hr

theorem decode_of_opRead {w : Word} (hr : rsvField w = 0) (ho : opField w = 0b001#3) :
    decode w = .ok (.read (argField w).toNat) := by
  simp [decode, hr, ho]

theorem decode_of_opEncode {w : Word} (hr : rsvField w = 0) (ho : opField w = 0b010#3) :
    decode w = .ok (encodeOperands (argField w)) := by
  simp [decode, hr, ho]

theorem decode_of_opDecode {w : Word} (hr : rsvField w = 0) (ho : opField w = 0b011#3) :
    decode w = .ok (.decode (argField w).toNat) := by
  simp [decode, hr, ho]

/-- OP is one of 000 and 100–111 (R52). -/
def OpReserved (w : Word) : Prop := (opField w).toNat = 0 ∨ 4 ≤ (opField w).toNat

theorem decode_of_opReserved {w : Word} (hr : rsvField w = 0) (ho : OpReserved w) : decode w = .error .reservedOpcode := by
  rw [decode, if_neg (not_not_intro hr)]
  unfold OpReserved at ho
  split
  case h_4 => rfl
  all_goals omega

/-- OP names one of the three commands or is reserved (R48). -/
theorem opField_cases (w : Word) :
    opField w = 0b001#3 ∨ opField w = 0b010#3 ∨ opField w = 0b011#3 ∨ OpReserved w := by
  unfold OpReserved
  generalize opField w = o
  revert o
  decide

/-- The ways a word is decoded (R51). -/
inductive DecodeCase (w : Word) : Prop
  | reservedBits (hr : rsvField w ≠ 0) (hd : decode w = .error .reservedBits)
  | reservedOpcode (hr : rsvField w = 0) (ho : OpReserved w) (hd : decode w = .error .reservedOpcode)
  | command (i : Instr) (hr : rsvField w = 0) (ho : opField w = i.opcode) (ha : argField w = i.arg) (hw : i.wf = true)
      (hd : decode w = .ok i)

theorem decode_cases (w : Word) : DecodeCase w := by
  by_cases hr : rsvField w = 0
  · have harg : BitVec.ofNat 5 (argField w).toNat = argField w := by simp
    have hwf : (argField w).toNat < 32 := (argField w).isLt
    obtain ho | ho | ho | ho := opField_cases w
    · exact .command (.read _) hr ho harg.symm (decide_eq_true hwf) (decode_of_opRead hr ho)
    · exact .command (encodeOperands _) hr ho (arg_encodeOperands _).symm rfl (decode_of_opEncode hr ho)
    · exact .command (.decode _) hr ho harg.symm (decide_eq_true hwf) (decode_of_opDecode hr ho)
    · exact .reservedOpcode hr ho (decode_of_opReserved hr ho)
  · exact .reservedBits hr (decode_of_rsv_ne hr)

/-- Settles O1: the fields of the word are RSV = 0, the command's OP and its ARG, and a well-formed operand is not cut
short by the 5 bits of ARG. -/
theorem decodeOfEncode : Obligations.DecodeOfEncode := by
  intro i hw
  obtain ⟨hr, ho, ha⟩ := encode_fields i
  cases i with
  | read n => rw [decode_of_opRead hr ho, ha, Instr.arg, operand_toNat (of_decide_eq_true hw)]
  | encode ch x g => rw [decode_of_opEncode hr ho, ha, Instr.arg, encodeOperands_modeCode]
  | decode n => rw [decode_of_opDecode hr ho, ha, Instr.arg, operand_toNat (of_decide_eq_true hw)]

/-- Settles O2: the word is the concatenation of its fields, and those are the command's. -/
theorem encodeOfDecode : Obligations.EncodeOfDecode := by
  intro w i hd
  obtain ⟨-, hd'⟩ | ⟨-, -, hd'⟩ | ⟨j, hr, ho, ha, hw, hd'⟩ := decode_cases w
  · simp [hd'] at hd
  · simp [hd'] at hd
  · obtain rfl : j = i := by simpa [hd'] using hd
    refine ⟨hw, ?_⟩
    calc encode j = rsvField w ++ opField w ++ argField w := by rw [hr, ho, ha]; rfl
      _ = w := fields_append w

theorem decode_reservedBits_iff (w : Word) : decode w = .error .reservedBits ↔ rsvField w ≠ 0 := by
  obtain ⟨hr, hd⟩ | ⟨hr, -, hd⟩ | ⟨i, hr, -, -, -, hd⟩ := decode_cases w
  · exact iff_of_true hd hr
  · simp [hr, hd]
  · simp [hr, hd]

theorem not_opReserved_of_opcode {w : Word} {i : Instr} (ho : opField w = i.opcode) : ¬ OpReserved w := by
  unfold OpReserved
  rw [ho]
  cases i <;> simp [Instr.opcode]

theorem decode_reservedOpcode_iff (w : Word) : decode w = .error .reservedOpcode ↔ rsvField w = 0 ∧ OpReserved w := by
  obtain ⟨hr, hd⟩ | ⟨hr, ho, hd⟩ | ⟨i, hr, ho, -, -, hd⟩ := decode_cases w
  · exact iff_of_false (by simp [hd]) fun h => hr h.1
  · exact iff_of_true hd ⟨hr, ho⟩
  · simp [hd, not_opReserved_of_opcode ho]

/-- Settles O3: RSV and OP as ranges of the word's value. -/
theorem rejectedWords : Obligations.RejectedWords := by
  intro w
  rw [decode_reservedBits_iff, decode_reservedOpcode_iff, OpReserved, ne_eq, rsvField_eq_zero_iff, opField_toNat]
  omega

/-- Settles O4: each word is written out, and the decoder computes. -/
theorem specWordsDecode : Obligations.SpecWordsDecode := by
  unfold Obligations.SpecWordsDecode
  decide

/-! ### The assembler (R53, R54) -/

/-- The GAIN field of an assembler gain (R53). -/
def Gain.field : Gain → GainField
  | .g128 => .g128
  | .g64 => .g64
  | .g32 => .g32

/-- An opcode's base word with an operand put into its low bits is the word of the two fields (R47). -/
theorem base_or_operand (o : BitVec 3) {n : Nat} (hn : n < 32) :
    (0#24 ++ o ++ 0#5) ||| BitVec.ofNat 32 n = 0#24 ++ o ++ BitVec.ofNat 5 n := by
  have hlow : (0#27 ++ BitVec.ofNat 5 n).toNat = n :=
    (BitVec.toNat_append _ _).trans (by simp [operand_toNat hn])
  have hw : BitVec.ofNat 32 n = 0#27 ++ BitVec.ofNat 5 n :=
    BitVec.eq_of_toNat_eq ((Nat.mod_eq_of_lt (by omega)).trans hlow.symm)
  rw [hw, BitVec.or_append, BitVec.or_zero, BitVec.zero_or]

theorem assemble_read {n : Nat} (hn : n < 32) : (Asm.read n).assemble = some (encode (.read n)) :=
  (if_pos (decide_eq_true hn)).trans (congrArg some (base_or_operand 0b001#3 hn))

theorem assemble_decode {n : Nat} (hn : n < 32) : (Asm.decode n).assemble = some (encode (.decode n)) :=
  (if_pos (decide_eq_true hn)).trans (congrArg some (base_or_operand 0b011#3 hn))

theorem assemble_encodeRaw {c : Nat} (hc : c < 32) :
    (Asm.encodeRaw c).assemble = some (encode (encodeOperands (BitVec.ofNat 5 c))) := by
  have he : encode (encodeOperands (BitVec.ofNat 5 c)) = 0#24 ++ 0b010#3 ++ BitVec.ofNat 5 c := by
    rw [encode, arg_encodeOperands]; rfl
  rw [he]
  exact (if_pos (decide_eq_true hc)).trans (congrArg some (base_or_operand 0b010#3 hc))

/-- Each of the six pairs assembles to the mode code with its reserved bits 0. -/
theorem assemble_encode (ch : Channel) (g : Gain) : (Asm.encode ch g).assemble = some (encode (.encode ch 0 g.field)) := by
  cases ch <;> cases g <;> rfl

/-- A statement has no word exactly where its number does not assemble. -/
theorem assemble_eq_none_iff (a : Asm) : a.assemble = none ↔ a.wf = false := by
  cases h : a.wf <;> simp [Asm.assemble, h]

/-- Settles O5: each statement's word is that of a well-formed command, and O1 decodes it. -/
theorem assembledWordsDecode : Obligations.AssembledWordsDecode := by
  refine ⟨fun n hn => ⟨_, assemble_read hn, decodeOfEncode _ (decide_eq_true hn)⟩,
    fun n hn => ⟨_, assemble_decode hn, decodeOfEncode _ (decide_eq_true hn)⟩,
    fun c hc => ⟨_, assemble_encodeRaw hc, decodeOfEncode _ rfl⟩,
    fun ch g => ⟨_, assemble_encode ch g, ?_⟩, fun v => rfl, fun n => ?_, rfl, rfl, rfl⟩
  · rw [decodeOfEncode _ rfl]
    cases g <;> rfl
  · simp [assemble_eq_none_iff, Asm.wf]

end Sys2Proof

namespace Sys2Proof.Machine

/-! ### Dispatch of a reserved word (R52) -/

theorem dispatch_error {v : Word} {e : DecodeError} (hd : decode v = .error e) (s : State) :
    dispatch v s = .next (complete .invalidArgument s) := by
  simp only [dispatch, hd]

/-- Completing while IDLE sets `code` and `valid` alone (R96). -/
theorem complete_idle {s : State} (hi : s.phase = .idle) (c : Code) : complete c s = { s with code := c, valid := true } := by
  rw [complete, ← hi]

/-- The words outside 32..127 are rejected, for RSV or for OP (R52). -/
theorem decode_error_of_reserved {v : Word} (hv : 256 ≤ v.toNat ∨ v.toNat < 32 ∨ 128 ≤ v.toNat) :
    ∃ e, decode v = .error e := by
  obtain ⟨hrsv, hop⟩ := rejectedWords v
  by_cases h : 256 ≤ v.toNat
  · exact ⟨_, hrsv.2 h⟩
  · exact ⟨_, hop.2 (by omega)⟩

/-- Settles O8: the write is dispatched, its word is rejected by O3, and the completion leaves the engine IDLE as it was. -/
theorem reservedWordCompletesInvalidArgument : Obligations.ReservedWordCompletesInvalidArgument := by
  intro s v rest hp hi ha hv
  obtain ⟨e, hd⟩ := decode_error_of_reserved hv
  calc step s = regWrite 0 v { s with agenda := rest } := step_regWrite hp ha
    _ = dispatch v { s with agenda := rest } := regWrite_idle (s := { s with agenda := rest }) hi v
    _ = .next (complete .invalidArgument { s with agenda := rest }) := dispatch_error hd _
    _ = .next { s with agenda := rest, code := .invalidArgument, valid := true } :=
      congrArg _ (complete_idle (s := { s with agenda := rest }) hi _)

/-! ### Host statements (R55) -/

theorem programMoves_cons_eq_some (st : HostStmt) (rest : List HostStmt) (ms : List Move) :
    programMoves (st :: rest) = some ms ↔
      ∃ m ms', hostMove st = some m ∧ programMoves rest = some ms' ∧ ms = m :: ms' := by
  rw [programMoves]
  cases hostMove st <;> cases programMoves rest <;> simp [eq_comm]

theorem programMoves_cons_eq_none (st : HostStmt) (rest : List HostStmt) :
    programMoves (st :: rest) = none ↔ hostMove st = none ∨ programMoves rest = none := by
  rw [programMoves]
  cases hostMove st <;> cases programMoves rest <;> simp

/-- A program's moves are its statements' moves, in order (log 26). -/
theorem programMoves_eq_some_iff (ps : List HostStmt) (ms : List Move) :
    programMoves ps = some ms ↔ ps.map hostMove = ms.map some := by
  induction ps generalizing ms with
  | nil => cases ms <;> simp [programMoves]
  | cons st rest ih =>
    rw [programMoves_cons_eq_some]
    cases ms with
    | nil => simp
    | cons m ms => simp [ih]

/-- A program has no moves exactly where one of its statements has none (log 26). -/
theorem programMoves_eq_none_iff (ps : List HostStmt) : programMoves ps = none ↔ ∃ st ∈ ps, hostMove st = none := by
  induction ps with
  | nil => simp [programMoves]
  | cons st rest ih => rw [programMoves_cons_eq_none, ih, List.exists_mem_cons_iff]

/-- Settles O13: the moves of single statements by definition, those of a program by induction on its statements. -/
theorem hostNotation : Obligations.HostNotation := by
  refine ⟨fun idx v => ?_, fun _ => rfl, rfl, fun _ => rfl, fun r => ?_, programMoves_eq_some_iff, programMoves_eq_none_iff⟩
  · rw [hostMove]
    cases v.assemble <;> rfl
  · cases r <;> rfl

/-- One iteration of `wait_idle` as one record: the poll, and what BUSY puts on the agenda (R55, log 16). -/
theorem waitIdleStep_eq (s : State) :
    waitIdleStep s = { s with
      agenda := if (status s).getLsbD 0 then .engine :: .waitIdle :: s.agenda else s.agenda
      hostReads := s.hostReads ++ [(1, status s)] } := by
  rw [waitIdleStep, status_busyBit]
  split <;> rfl

/-- Settles O15: the step is the agenda's first move, and BUSY does not depend on the agenda. -/
theorem waitIdlePolls : Obligations.WaitIdlePolls := by
  intro s rest hp ha
  calc step s = .next (waitIdleStep { s with agenda := rest }) := step_cons hp ha
    _ = _ := congrArg _ (waitIdleStep_eq _)

end Sys2Proof.Machine
end

section
/-! The statements of `41_bus_primitives.md`: what the pin primitives and the pulse return and leave on the lines (R57, R58, R59),
and that no step reads the trace (R56). -/

namespace Sys2Proof.Machine

/-! ### The platform's answers (R57, R58, log 4) -/

/-- A platform that cannot fault answers `ok`. -/
theorem nextAnswer_cannotFault {s : State} (h : s.params.gpioMayFault = false) : nextAnswer s = .ok := by
  simp [nextAnswer, h]

/-- A platform that may fault answers what its inputs list next. -/
theorem nextAnswer_mayFault {s : State} {a : Answer} {as : List Answer} (h : s.params.gpioMayFault = true)
    (hg : s.gpioIn = a :: as) : nextAnswer s = a := by
  simp [nextAnswer, h, hg]

/-- The converter presents what its inputs list next. -/
theorem nextLevel_cons {s : State} {d : Level} {ds : List Level} (h : s.dataIn = d :: ds) : nextLevel s = d := by
  simp [nextLevel, h]

/-- Settles O21: one equation of `pinWrite` per answer. -/
theorem pinWriteEffect : Obligations.PinWriteEffect :=
  fun _ _ => ⟨pinWrite_ok, pinWrite_fault, nextAnswer_cannotFault⟩

/-- Settles O22: one equation of `pinRead` per answer; the sampled bit is the converter's next level, which the answer's draw
leaves as it was. -/
theorem pinReadEffect : Obligations.PinReadEffect :=
  fun s => ⟨pinRead_fault, fun h => ⟨_, pinRead_ok h, fun _ _ hd => nextLevel_cons (s := takeAnswer s) hd⟩,
    nextAnswer_cannotFault⟩

/-! ### The pulse (R59) -/

@[simp] theorem pinWrite_trace (b : Level) (s : State) :
    (pinWrite b s).2.trace = s.trace ++ [clkEvent b (nextAnswer s)] := rfl

section
variable {α : Type} {high : State → Option α × State} {s u : State} {o : Option α}

theorem pinRead_params (s : State) : (pinRead s).2.params = s.params := by rw [pinRead_lines s]

/-- The platform's draw is spent on either answer (R58). -/
theorem pinRead_gpioIn (s : State) : (pinRead s).2.gpioIn = s.gpioIn.tail := by
  obtain h | h := answer_cases (nextAnswer s) <;> simp [pinRead_ok, pinRead_fault, h]

/-- CLK high refused: the high phase is left out, and CLK is driven low. -/
theorem pulse_highRefused (h : nextAnswer s = .fault) :
    pulse high s = (none, (pinWrite false (pinWrite true s).2).2) := by
  simp only [pulse, pinWrite_fault h]

/-- CLK high accepted: whatever the high phase gives, CLK is driven low; its value is returned unless that write is refused. -/
theorem pulse_highDriven (h : nextAnswer s = .ok) (e : high (pinWrite true s).2 = (o, u)) :
    pulse high s = (if nextAnswer u = .ok then o else none, (pinWrite false u).2) := by
  rw [pinWrite_ok h] at e
  simp only [pulse, pinWrite_ok h, e]
  cases o with
  | none => simp
  | some d => obtain k | k := answer_cases (nextAnswer u) <;> simp [pinWrite_ok, pinWrite_fault, k]

end

/-- Settles O23: the cases are the first primitive the platform refuses, if any; CLK ends low by `pulse_lines`. -/
theorem pulseEffect : Obligations.PulseEffect := by
  intro s a b c d as ds hf hg hd
  have ha : nextAnswer s = a := nextAnswer_mayFault hf hg
  have hb : nextAnswer (pinWrite true s).2 = b := nextAnswer_mayFault hf (congrArg List.tail hg)
  have hc : nextAnswer (pinRead (pinWrite true s).2).2 = c :=
    nextAnswer_mayFault (by rw [pinRead_params]; exact hf) ((pinRead_gpioIn _).trans (congrArg (·.tail.tail) hg))
  have hl : nextLevel (takeAnswer (pinWrite true s).2) = d := nextLevel_cons (ds := ds) hd
  refine ⟨?_, ?_, (pulse_lines pinRead_lines s).2, (pulse_lines noSample_lines s).2⟩
  · cases a with
    | fault => simp [pulse_highRefused ha, ha, hb, clkEvent]
    | ok =>
      simp only [pulse_highDriven (high := pinRead) ha Prod.mk.eta.symm, pinWrite_trace, hc]
      cases b with
      | fault => simp [pinRead_fault hb, ha, clkEvent]
      | ok => cases c <;> simp [pinRead_ok hb, hl, ha, clkEvent]
  · cases a with
    | fault => simp [pulse_highRefused ha, ha, hb, clkEvent]
    | ok =>
      simp only [pulse_highDriven (high := noSample) ha rfl]
      cases b <;> simp [ha, hb, clkEvent]

/-! ### The trace is never read (R56) -/

/-- `s` with another trace. -/
def retraced (tr : List Event) (s : State) : State := { s with trace := tr }

@[simp] theorem retraced_busy (tr : List Event) (s : State) : (retraced tr s).busy = s.busy := rfl
@[simp] theorem retraced_agenda (tr : List Event) (s : State) : (retraced tr s).agenda = s.agenda := rfl

/-- `u` is `s`, the trace apart. -/
def TraceOnly (s u : State) : Prop := u = retraced u.trace s

/-- What `f` does does not depend on the trace. -/
def TraceBlind (f : State → State) : Prop := ∀ s tr, TraceOnly (f s) (f (retraced tr s))

/-- What the primitive `f` answers and does does not depend on the trace. -/
def AnswerBlind {α : Type} (f : State → α × State) : Prop :=
  ∀ {s u : State} {o : α} (tr : List Event), f s = (o, u) → ∃ tr', f (retraced tr s) = (o, retraced tr' u)

/-! The primitives. -/

theorem noSample_answerBlind : AnswerBlind noSample := by
  rintro s _ _ tr ⟨⟩
  exact ⟨_, rfl⟩

theorem tsRead_answerBlind : AnswerBlind tsRead := by
  rintro s _ _ tr ⟨⟩
  exact ⟨_, rfl⟩

theorem pinRead_answerBlind : AnswerBlind pinRead := by
  intro s u o tr hs
  obtain h | h := answer_cases (nextAnswer s)
  · rw [pinRead_ok h] at hs
    cases hs
    exact ⟨_, pinRead_ok (s := retraced tr s) h⟩
  · rw [pinRead_fault h] at hs
    cases hs
    exact ⟨_, pinRead_fault (s := retraced tr s) h⟩

/-- A pulse looks at the answers and at what its high phase gives, and at nothing else (R59). -/
theorem pulse_answerBlind {α : Type} {high : State → Option α × State} (hh : AnswerBlind high) : AnswerBlind (pulse high) := by
  intro s u o tr hs
  obtain h | h := answer_cases (nextAnswer s)
  · rcases e : high (pinWrite true s).2 with ⟨o', u'⟩
    obtain ⟨tr', e'⟩ := hh (tr ++ [clkEvent true (nextAnswer s)]) e
    rw [pulse_highDriven h e] at hs
    cases hs
    exact ⟨_, pulse_highDriven (s := retraced tr s) (u := retraced tr' u') h e'⟩
  · rw [pulse_highRefused h] at hs
    cases hs
    exact ⟨_, pulse_highRefused (s := retraced tr s) h⟩

/-! The engine's steps and the commands. -/

/-- The poll looks at the sample and at the time since `t_cmd` (R65). -/
theorem waitStep_traceBlind : TraceBlind waitStep := by
  intro s tr
  rcases e : pinRead s with ⟨o, s1⟩
  obtain ⟨tr1, e'⟩ := pinRead_answerBlind tr e
  simp only [waitStep, e, e']
  cases o with
  | none => rfl
  | some d =>
    rcases k : tsRead s1 with ⟨t, s2⟩
    obtain ⟨tr2, k'⟩ := tsRead_answerBlind tr1 k
    simp only [k, k']
    by_cases hd : d = false
    · simp only [if_pos hd]
      rfl
    · simp only [if_neg hd]
      by_cases ht : s2.params.waitTimeout.val ≤ (t - s2.tCmd).toNat
      · rw [if_pos ht, if_pos (by exact ht)]
        rfl
      · rw [if_neg ht, if_neg (by exact ht)]
        rfl

theorem shiftStep_traceBlind : TraceBlind shiftStep := by
  intro s tr
  rcases e : pulse pinRead s with ⟨o, u⟩
  obtain ⟨tr', e'⟩ := pulse_answerBlind pinRead_answerBlind tr e
  cases o with
  | none =>
    simp only [shiftStep, e, e']
    rfl
  | some d =>
    by_cases hn : u.bitCount + 1 = 24
    · rw [shiftStep_last e hn, shiftStep_last e' hn]
      rfl
    · rw [shiftStep_more e hn, shiftStep_more e' hn]
      rfl

theorem trailStep_traceBlind : TraceBlind trailStep := by
  intro s tr
  rcases e : pulse noSample s with ⟨o, u⟩
  obtain ⟨tr', e'⟩ := pulse_answerBlind noSample_answerBlind tr e
  cases o with
  | none =>
    simp only [trailStep, e, e']
    rfl
  | some _ =>
    by_cases hn : u.trailCount + 1 = u.curN.toNat - 24
    · rw [trailStep_last e hn, trailStep_last e' hn]
      rfl
    · rw [trailStep_more e hn, trailStep_more e' hn]
      rfl

theorem engineStep_idle {s : State} (h : s.phase = .idle) : engineStep s = s := by simp only [engineStep, h]

theorem engineStep_traceBlind : TraceBlind engineStep := by
  intro s tr
  cases hp : s.phase with
  | idle => rw [engineStep_idle hp, engineStep_idle (by exact hp)]; rfl
  | wait => rw [engineStep_wait hp, engineStep_wait (by exact hp)]; exact waitStep_traceBlind s tr
  | shift => rw [engineStep_shift hp, engineStep_shift (by exact hp)]; exact shiftStep_traceBlind s tr
  | trail => rw [engineStep_trail hp, engineStep_trail (by exact hp)]; exact trailStep_traceBlind s tr

/-- Acceptance looks at the answer to its one CLK write (R64). -/
theorem accept_traceBlind (n : Nat) : TraceBlind (accept n) := by
  intro s tr
  obtain h | h := answer_cases (nextAnswer (clockStep s))
  · rw [accept_ok h, accept_ok (s := retraced tr s) h]
    rfl
  · rw [accept_fault h, accept_fault (s := retraced tr s) h]
    rfl

theorem completeWith_traceBlind (x : Except Code Word) : TraceBlind (completeWith x) := by
  intro s tr
  cases x <;> rfl

/-! The moves. -/

theorem exec_traceOnly (i : Instr) (s : State) (tr : List Event) :
    OutcomesAgree TraceOnly (exec i s) (exec i (retraced tr s)) := by
  cases i with
  | encode ch x g => exact completeWith_traceBlind _ s tr
  | decode n => exact completeWith_traceBlind _ s tr
  | read n =>
    simp only [exec, execRead]
    split
    · exact accept_traceBlind n s tr
    · exact rfl

theorem dispatch_traceOnly (v : Word) (s : State) (tr : List Event) :
    OutcomesAgree TraceOnly (dispatch v s) (dispatch v (retraced tr s)) := by
  unfold dispatch
  split
  · exact exec_traceOnly _ s tr
  · exact rfl

theorem regWrite_traceOnly (idx : RegIndex) (v : Word) (s : State) (tr : List Event) :
    OutcomesAgree TraceOnly (regWrite idx v s) (regWrite idx v (retraced tr s)) := by
  by_cases hi : idx = 0
  · subst hi
    by_cases hp : s.phase = .idle
    · rw [regWrite_idle hp, regWrite_idle (s := retraced tr s) hp]
      exact dispatch_traceOnly v s tr
    · rw [regWrite_busy hp, regWrite_busy (s := retraced tr s) hp]
      exact rfl
  · rw [regWrite_of_ne hi, regWrite_of_ne hi]
    exact rfl

theorem perform_traceOnly (m : Move) (s : State) (tr : List Event) :
    OutcomesAgree TraceOnly (perform m s) (perform m (retraced tr s)) := by
  cases m with
  | regWrite idx v => exact regWrite_traceOnly idx v s tr
  | waitIdle =>
    simp only [perform, waitIdleStep_eq]
    exact rfl
  | engine =>
    cases hb : s.busy <;> simp only [perform, retraced_busy, hb, Bool.false_eq_true, if_false, if_true]
    · exact rfl
    · exact engineStep_traceBlind s tr
  | regRead _ | clock _ | reset _ => exact rfl

theorem defaultMove_traceBlind : TraceBlind defaultMove := by
  intro s tr
  cases hb : s.busy <;> simp only [defaultMove, retraced_busy, hb, Bool.false_eq_true, if_false, if_true]
  · rfl
  · exact engineStep_traceBlind s tr

/-- Settles O54: the configuration and the agenda choose the move, and no move depends on the trace. -/
theorem traceNeverRead : Obligations.TraceNeverRead := by
  intro s tr
  change OutcomesAgree TraceOnly (step s) (step (retraced tr s))
  by_cases hp : s.params.pinsOk = true
  · rw [step_pinsOk hp, step_pinsOk (s := retraced tr s) hp]
    rw [retraced_agenda]
    cases s.agenda with
    | nil => exact defaultMove_traceBlind s tr
    | cons m rest => exact perform_traceOnly m { s with agenda := rest } tr
  · rw [step_illFormed hp, step_illFormed (s := retraced tr s) hp]
    exact rfl

end Sys2Proof.Machine
end

section
/-! The statements of `42_read_cycle.md`: validation and acceptance (R62–R64), one step of each phase (R65, R67, R70), the sample
(R68, R69), whole READs (R66, R71–R75), and how long the phases last (R77, R124). -/

namespace Sys2Proof.Machine

/-! ### Validation and acceptance (R62, R63, R64) -/

theorem exec_read_legal {n : Nat} (hn : n = 25 ∨ n = 26 ∨ n = 27) (s : State) : exec (.read n) s = .next (accept n s) := by
  rw [exec, execRead, if_pos ((legalPulses_iff n).2 hn)]

theorem exec_read_illegal {n : Nat} (hn : ¬ (n = 25 ∨ n = 26 ∨ n = 27)) (s : State) :
    exec (.read n) s = .next (complete .invalidMode s) := by
  rw [exec, execRead, if_neg (mt (legalPulses_iff n).1 hn)]

/-- Settles O25: an invalid count only completes, and at IDLE a completion leaves `phase` as it is. -/
theorem readInvalidMode : Obligations.ReadInvalidMode := by
  intro n s hi hn
  rw [exec_read_illegal hn, complete_idle hi]

/-- Settles O26: a valid count is accepted, with CLK driven low. -/
theorem readAccepted : Obligations.ReadAccepted := by
  intro n s hn h
  rw [exec_read_legal hn, accept_ok h]

/-- Settles O27: a valid count is accepted, with the CLK write refused. -/
theorem readAcceptanceBusFault : Obligations.ReadAcceptanceBusFault := by
  intro n s hn h
  rw [exec_read_legal hn, accept_fault h]

/-! ### One step of each phase (R65, R67, R70) -/

section
variable {s : State} (turn : EngineTurn s)
include turn

theorem step_waitTurn (hp : s.phase = .wait) : step s = .next (waitStep { s with agenda := s.agenda.tail }) := by
  rw [step_engineTurn turn, engineStep_wait (by exact hp)]

theorem step_shiftTurn (hp : s.phase = .shift) : step s = .next (shiftStep { s with agenda := s.agenda.tail }) := by
  rw [step_engineTurn turn, engineStep_shift (by exact hp)]

theorem step_trailTurn (hp : s.phase = .trail) : step s = .next (trailStep { s with agenda := s.agenda.tail }) := by
  rw [step_engineTurn turn, engineStep_trail (by exact hp)]

end

/-- The Clock lets pass what its inputs list next. -/
theorem nextTicks_cons {s : State} {c : Nat} {cs : List Nat} (hc : s.clockIn = c :: cs) : nextTicks s = c := by
  simp [nextTicks, hc]

theorem pollStamp_cons {s : State} {c : Nat} {cs : List Nat} (hc : s.clockIn = c :: cs) :
    pollStamp s = s.ts + BitVec.ofNat 64 c := by
  rw [pollStamp, nextTicks_cons (by exact hc)]

section
variable {s : State} (h : nextAnswer s = .ok)
include h

/-- A low sample is ready, past the deadline too (R65). -/
theorem waitStep_ready (hd : nextLevel (takeAnswer s) = false) :
    waitStep s = { polled false (pollStamp s) s with tReady := pollStamp s, phase := .shift } := by
  rw [waitStep_ok h, hd, if_pos rfl]

/-- A high sample at or past the deadline (R65). -/
theorem waitStep_expired (hd : nextLevel (takeAnswer s) = true)
    (hk : s.params.waitTimeout.val ≤ (pollStamp s - s.tCmd).toNat) :
    waitStep s = complete .timeout (polled true (pollStamp s) s) := by
  rw [waitStep_ok h, hd, if_neg Bool.noConfusion, if_pos hk]

/-- A high sample before the deadline (R65). -/
theorem waitStep_waiting (hd : nextLevel (takeAnswer s) = true)
    (hk : (pollStamp s - s.tCmd).toNat < s.params.waitTimeout.val) : waitStep s = polled true (pollStamp s) s := by
  rw [waitStep_ok h, hd, if_neg Bool.noConfusion, if_neg (Nat.not_le.2 hk)]

end

/-- Settles O28: one equation of `waitStep` per outcome. -/
theorem waitPoll : Obligations.WaitPoll := by
  intro s turn hp
  rw [step_waitTurn turn hp]
  refine ⟨fun h => ?_, fun h => ⟨_, _, _, rfl, rfl, rfl, fun hd => ?_, fun hd hk => ?_, fun hd hk => ?_⟩⟩
  · exact congrArg _ (waitStep_fault (by exact h))
  · rw [hd]; exact congrArg _ (waitStep_ready (by exact h) hd)
  · rw [hd]; exact congrArg _ (waitStep_expired (by exact h) hd hk)
  · rw [hd]; exact congrArg _ (waitStep_waiting (by exact h) hd hk)

/-- Shifting a bit in at the low end doubles the number and adds the bit; the bit shifted out is lost (R67). -/
theorem shiftIn_eq_ofNat (u : Sample) (d : Level) : shiftIn u d = BitVec.ofNat 24 (2 * u.toNat + d.toNat) := by
  have hd := d.toNat_le
  apply BitVec.eq_of_toNat_eq
  simp only [shiftIn, BitVec.toNat_append, BitVec.toNat_ofBool, BitVec.extractLsb'_toNat, Nat.shiftRight_zero,
    BitVec.toNat_ofNat]
  rw [← Nat.shiftLeft_add_eq_or_of_lt (by omega), Nat.shiftLeft_eq]
  omega

section
variable {s : State} (h1 : nextAnswer s = .ok) (h2 : nextAnswer (takeAnswer s) = .ok)
include h1 h2

/-- The 24th data pulse (R67). -/
theorem shiftStep_lastBit (h3 : nextAnswer (takeLevel (takeAnswer (takeAnswer s))) = .ok) (hb : s.bitCount + 1 = 24) :
    shiftStep s = { shifted (nextLevel (takeAnswer (takeAnswer s))) s with trailCount := 0, phase := .trail } := by
  rw [shiftStep_last (pulse_pinRead_ok h1 h2 h3) hb]
  simp [shifted, ← List.drop_one, List.drop_drop]

/-- A data pulse before the 24th (R67). -/
theorem shiftStep_moreBits (h3 : nextAnswer (takeLevel (takeAnswer (takeAnswer s))) = .ok) (hb : s.bitCount + 1 ≠ 24) :
    shiftStep s = shifted (nextLevel (takeAnswer (takeAnswer s))) s := by
  rw [shiftStep_more (pulse_pinRead_ok h1 h2 h3) hb]
  simp [shifted, ← List.drop_one, List.drop_drop]

/-- The last trailing pulse (R70). -/
theorem trailStep_lastPulse (hn : s.trailCount + 1 = s.curN.toNat - 24) :
    trailStep s = finish (takeConv (trailed s)) := by
  rw [trailStep_last (pulse_noSample_ok h1 h2) hn]
  simp [trailed, ← List.drop_one, List.drop_drop]

/-- A trailing pulse before the last (R70). -/
theorem trailStep_morePulses (hn : s.trailCount + 1 ≠ s.curN.toNat - 24) : trailStep s = trailed s := by
  rw [trailStep_more (pulse_noSample_ok h1 h2) hn]
  simp [trailed, ← List.drop_one, List.drop_drop]

end

/-- `t_conv`, as the last trailing pulse reads it in `u` (R70). -/
def convStamp (u : State) : Stamp := u.ts + BitVec.ofNat 64 (nextTicks u)

/-- `t_done`, read next (R73). -/
def doneStamp (u : State) : Stamp := convStamp u + BitVec.ofNat 64 (nextTicks (clockStep u))

/-- The end of a successful READ after its last pulse (R70, R73, R74). -/
theorem finish_takeConv_eq (u : State) :
    finish (takeConv u) = { u with
      raw := sampleRaw u.shift, result := sampleResult u.shift
      waitTime := duration u.tReady u.tCmd, convTime := duration (convStamp u) u.tReady
      totalTime := duration (doneStamp u) u.tCmd
      smode := u.latched, latched := if u.desync then none else some u.curN
      code := .ok, valid := true, phase := .idle
      tConv := convStamp u, ts := doneStamp u, clockIn := u.clockIn.drop 2, freeCount := u.freeCount + 2
      trace := u.trace ++ [.ts (convStamp u), .ts (doneStamp u)] } := by
  have hclock : u.clockIn.drop 2 = u.clockIn.tail.tail := by rw [← List.drop_one, ← List.drop_one, List.drop_drop]
  rw [finish_eq, takeConv_eq, hclock]
  simp only [List.append_assoc]
  rfl

/-- Settles O29: one equation of `shiftStep` for the 24th bit, one for the others. -/
theorem shiftPulse : Obligations.ShiftPulse := by
  intro s turn hp h1 h2 h3
  rw [step_shiftTurn turn hp]
  refine ⟨_, _, rfl, rfl, fun hlast => ?_, fun hmore => ?_⟩ <;> rw [← shiftIn_eq_ofNat]
  · exact congrArg _ (shiftStep_lastBit (by exact h1) h2 h3 hlast)
  · exact congrArg _ (shiftStep_moreBits (by exact h1) h2 h3 hmore)

/-- Settles O30: one equation of `trailStep` for the last pulse, one for the others. -/
theorem trailPulse : Obligations.TrailPulse := by
  intro s turn hp h1 h2
  rw [step_trailTurn turn hp]
  refine ⟨fun hmore => ?_, fun hlast => ⟨_, _, rfl, rfl, ?_⟩⟩
  · exact congrArg _ (trailStep_morePulses (by exact h1) h2 hmore)
  · rw [trailStep_lastPulse (by exact h1) (by exact h2) (by exact hlast), finish_takeConv_eq]
    simp only [trailed, trailPulseEvents, List.append_assoc]
    rfl

/-! ### The sample (R69) -/

theorem sampleResult_toInt (u : Sample) : (sampleResult u).toInt = u.toInt :=
  BitVec.toInt_signExtend_of_le (by decide)

/-- A sample below 2^23 is its own RawSample. -/
theorem sampleResult_of_msb_false {u : Sample} (h : u.msb = false) : sampleResult u = u.setWidth 32 :=
  BitVec.signExtend_eq_setWidth_of_msb_false h

/-- The sign bit fills the eight high bits. -/
theorem sampleResult_of_msb_true {u : Sample} (h : u.msb = true) : sampleResult u = 0xFF000000#32 ||| u.setWidth 32 := by
  apply BitVec.eq_of_toNat_eq
  rw [sampleResult, BitVec.toNat_signExtend, BitVec.toNat_or, h, if_pos rfl, BitVec.toNat_setWidth_of_le (by decide),
    Nat.add_comm]
  exact Nat.two_pow_add_eq_or_of_lt u.isLt 0xFF

/-- Settles O32: the reading is that of the 24 bits themselves, so it is one-to-one onto their range. -/
theorem sampleIsTwosComplement : Obligations.SampleIsTwosComplement := by
  refine ⟨fun u => ?_, fun u => ?_, fun z hlo hhi => ⟨BitVec.ofInt 24 z, ?_, fun v hv => ?_⟩⟩
  · rw [sampleResult_toInt, BitVec.toInt_eq_toNat_cond]
    split <;> split <;> omega
  · have hmsb : u.msb = u.getLsbD 23 := BitVec.msb_eq_getLsbD_last u
    rw [← hmsb]
    cases h : u.msb with
    | false => exact sampleResult_of_msb_false h
    | true => exact sampleResult_of_msb_true h
  · rw [sampleResult_toInt, BitVec.toInt_ofInt, Int.bmod_eq_of_le (by omega) (by omega)]
  · rw [← hv, sampleResult_toInt, BitVec.ofInt_toInt]

/-! ### Runs -/

theorem runSteps_succ_eq_next_iff {k : Nat} {s t : State} :
    runSteps (k + 1) s = .next t ↔ ∃ u, step s = .next u ∧ runSteps k u = .next t := by
  refine ⟨fun h => ?_, fun ⟨u, hs, h⟩ => (runSteps_next k hs).trans h⟩
  have e : Sys2Proof.core.step s = step s := rfl
  simp only [runSteps, Host.Core.run, e] at h
  cases hs : step s with
  | next u => rw [hs] at h; exact ⟨u, rfl, h⟩
  | fault _ | refused _ => rw [hs] at h; cases h

/-- A run goes on from where its first part ends. -/
theorem runSteps_add {j k : Nat} {s u : State} (h : runSteps j s = .next u) : runSteps (j + k) s = runSteps k u := by
  induction j generalizing s with
  | zero =>
    obtain rfl := Host.Outcome.next.inj h
    rw [Nat.zero_add]
  | succ j ih =>
    obtain ⟨v, hs, hv⟩ := runSteps_succ_eq_next_iff.1 h
    rw [Nat.add_right_comm, runSteps_next _ hs, ih hv]

/-- The last step of a run. -/
theorem runSteps_last {j : Nat} {s t : State} (h : runSteps (j + 1) s = .next t) :
    ∃ u, runSteps j s = .next u ∧ step u = .next t := by
  induction j generalizing s with
  | zero =>
    obtain ⟨u, hs, h⟩ := runSteps_succ_eq_next_iff.1 h
    exact ⟨s, rfl, hs.trans h⟩
  | succ j ih =>
    obtain ⟨v, hs, h⟩ := runSteps_succ_eq_next_iff.1 h
    obtain ⟨u, hu, ht⟩ := ih h
    exact ⟨u, (runSteps_next j hs).trans hu, ht⟩

/-! ### No edge of CLK before SHIFT (R66, R75) -/

/-- None of the events drives CLK high, accepted or refused. -/
def NoRise (es : List Event) : Prop := ∀ e ∈ es, e ≠ .clkSet true ∧ e ≠ .clkFault true

theorem NoRise.append {es fs : List Event} (h : NoRise es) (k : NoRise fs) : NoRise (es ++ fs) :=
  fun e he => (List.mem_append.1 he).elim (h e) (k e)

theorem NoRise.risingEdges {es : List Event} (h : NoRise es) (l : Level) : risingEdges l es = 0 := by
  induction es generalizing l with
  | nil => rfl
  | cons e es ih =>
    have htail := ih fun e' he => h e' (List.mem_cons_of_mem _ he)
    obtain ⟨hset, -⟩ := h e List.mem_cons_self
    cases e with
    | clkSet b =>
      cases b with
      | true => exact absurd rfl hset
      | false => simp [Machine.risingEdges, htail]
    | _ => exact htail _

/-- From `s` to `t` the trace has grown by events that do not drive CLK high. -/
def QuietSteps (s t : State) : Prop := ∃ es, t.trace = s.trace ++ es ∧ NoRise es

theorem QuietSteps.of_trace {s t : State} (h : t.trace = s.trace) : QuietSteps s t :=
  ⟨[], by rw [h, List.append_nil], by simp [NoRise]⟩

theorem QuietSteps.trans {s t u : State} (h : QuietSteps s t) (k : QuietSteps t u) : QuietSteps s u := by
  obtain ⟨es, he, hes⟩ := h
  obtain ⟨fs, hf, hfs⟩ := k
  exact ⟨es ++ fs, by rw [hf, he, List.append_assoc], hes.append hfs⟩

/-- A WAIT poll samples DATA and reads the clock; it leaves CLK alone (R65). -/
theorem waitStep_quiet (s : State) : QuietSteps s (waitStep s) := by
  obtain e | e | ⟨-, e⟩ | ⟨-, e⟩ := waitStep_cases s <;> rw [e] <;> exact ⟨_, rfl, by simp [NoRise]⟩

/-- Acceptance drives CLK low (R64). -/
theorem accept_quiet (n : Nat) (s : State) : QuietSteps s (accept n s) := by
  obtain h | h := answer_cases (nextAnswer (clockStep s))
  · rw [accept_ok h]; exact ⟨_, rfl, by simp [NoRise]⟩
  · rw [accept_fault h]; exact ⟨_, rfl, by simp [NoRise]⟩

theorem CommandCase.quiet {s t : State} (h : CommandCase s t) : QuietSteps s t := by
  cases h with
  | done v h => subst h; exact .of_trace rfl
  | failed c _ h => subst h; exact .of_trace rfl
  | accepted n _ h => subst h; exact accept_quiet n s

/-- No step out of IDLE or WAIT drives CLK high, unless it is a reset. -/
theorem step_quiet {s t : State} (h : step s = .next t) (hp : s.phase = .idle ∨ s.phase = .wait) (hr : ¬ ResetTurn s) :
    QuietSteps s t := by
  cases step_kind h with
  | engine turn h =>
    obtain ⟨-, busy, -⟩ := turn
    have hwait : s.phase = .wait := hp.resolve_left busy
    rw [h, engineStep_wait (by exact hwait)]
    exact waitStep_quiet { s with agenda := s.agenda.tail }
  | dispatched v _ _ h => exact CommandCase.quiet (s := { s with agenda := s.agenda.tail }) (dispatch_cases h)
  | untouched _ h _ => rw [h]; exact .of_trace rfl
  | reset k ha _ => exact absurd ⟨k, ha⟩ hr

/-- A run whose states but the last are IDLE or in WAIT, with no reset, drives CLK high nowhere. -/
theorem runSteps_quiet {j : Nat} {s t : State}
    (hw : ∀ i u, i < j → runSteps i s = .next u → (u.phase = .idle ∨ u.phase = .wait) ∧ ¬ ResetTurn u)
    (h : runSteps j s = .next t) : QuietSteps s t := by
  induction j generalizing t with
  | zero => rw [← Host.Outcome.next.inj h]; exact .of_trace rfl
  | succ j ih =>
    obtain ⟨u, hu, ht⟩ := runSteps_last h
    obtain ⟨hphase, hreset⟩ := hw j u (Nat.lt_succ_self j) hu
    exact (ih (fun i v hi => hw i v (Nat.lt_succ_of_lt hi)) hu).trans (step_quiet ht hphase hreset)

/-- Settles O37: the run starts at IDLE with a CMD write, is in WAIT until its last step, and each such step is quiet. -/
theorem noEdgeBeforeShift : Obligations.NoEdgeBeforeShift := by
  intro s t n j hi _ ha hw h
  have hquiet : ∀ i u, i < j + 1 → runSteps i s = .next u → (u.phase = .idle ∨ u.phase = .wait) ∧ ¬ ResetTurn u := by
    intro i u hij hu
    cases i with
    | zero =>
      obtain rfl := Host.Outcome.next.inj hu
      exact ⟨.inl hi, fun ⟨k, hk⟩ => by rw [ha] at hk; cases hk⟩
    | succ i =>
      obtain ⟨hwait, hreset⟩ := hw (i + 1) u (by omega) (by omega) hu
      exact ⟨.inr hwait, hreset⟩
  obtain ⟨es, he, hes⟩ := runSteps_quiet hquiet h
  exact ⟨es, he, hes, hes.risingEdges⟩

/-! ### The pulses left (R77) -/

/-- What an engine step in SHIFT or TRAIL comes to: the READ ends, by a bus fault or OK with its last pulse, or the step made one
of the pulses left. -/
def OnePulse (s t : State) : Prop :=
  t.phase = .idle ∧ (t.code = .busFault ∨ t.code = .ok ∧ s.phase = .trail ∧ pulsesLeft s = 1) ∨
    (t.phase = .shift ∨ t.phase = .trail) ∧ pulsesLeft s = pulsesLeft t + 1

theorem shiftStep_onePulse {s : State} (hs : Invariant s) (hp : s.phase = .shift) : OnePulse s (shiftStep s) := by
  obtain ⟨hbits, htrail⟩ := hs.shift_bits hp
  obtain ⟨u, hl, -, e | ⟨d, ⟨hlast, e⟩ | ⟨-, e⟩⟩⟩ := shiftStep_cases s <;> rw [e, hl]
  · exact .inl ⟨rfl, .inl rfl⟩
  · exact .inr ⟨.inr rfl, by simp only [pulsesLeft]; omega⟩
  · exact .inr ⟨.inl hp, by simp only [pulsesLeft]; omega⟩

theorem trailStep_onePulse {s : State} (hs : Invariant s) (hp : s.phase = .trail) : OnePulse s (trailStep s) := by
  obtain ⟨hbits, htrail⟩ := hs.trail_pulses hp
  obtain ⟨u, hl, -, e | ⟨hmore, e⟩ | ⟨hlast, e⟩⟩ := trailStep_cases s <;> rw [e]
  · exact .inl ⟨rfl, .inl rfl⟩
  · rw [hl]; exact .inr ⟨.inr hp, by simp only [pulsesLeft]; omega⟩
  · rw [finish_eq]; exact .inl ⟨rfl, .inr ⟨rfl, hp, by simp only [pulsesLeft]; omega⟩⟩

theorem engineStep_onePulse {s : State} (hs : Invariant s) (hp : s.phase = .shift ∨ s.phase = .trail) :
    OnePulse s (engineStep s) := by
  obtain hp | hp := hp
  · rw [engineStep_shift hp]; exact shiftStep_onePulse hs hp
  · rw [engineStep_trail hp]; exact trailStep_onePulse hs hp

/-- Settles O41: the Engine's step makes one pulse, and the other agents leave the counters alone. -/
theorem eachEngineStepMakesOnePulse : Obligations.EachEngineStepMakesOnePulse := by
  intro s t hs h hr hp
  refine ⟨fun turn => ?_, fun hn => ?_⟩
  · rw [step_engineTurn turn] at h
    obtain rfl := Host.Outcome.next.inj h
    exact engineStep_onePulse (s := { s with agenda := s.agenda.tail }) (hs.withAgenda _) hp
  · cases step_kind h with
    | engine turn _ => exact absurd turn hn
    | dispatched _ idle _ _ => simp [idle] at hp
    | untouched _ h _ => rw [h]; exact ⟨rfl, rfl⟩
    | reset k ha _ => exact absurd ⟨k, ha⟩ hr

theorem pulsesLeft_pos {s : State} (hs : Invariant s) (hp : s.phase = .shift ∨ s.phase = .trail) : 1 ≤ pulsesLeft s := by
  obtain hp | hp := hp
  · obtain ⟨hbits, -⟩ := hs.shift_bits hp
    simp only [pulsesLeft]
    omega
  · obtain ⟨-, htrail⟩ := hs.trail_pulses hp
    simp only [pulsesLeft]
    omega

/-- A READ has at most 27 pulses. -/
theorem pulsesLeft_le {s : State} (hs : Invariant s) (busy : s.phase ≠ .idle) : pulsesLeft s ≤ 27 := by
  have := (legalPulses_iff _).1 (hs.busy_legal busy)
  simp only [pulsesLeft]
  omega

/-- With nothing on the agenda the Engine takes every step, and each either ends the READ or makes one of the pulses left. -/
theorem runSteps_pulses_end {s : State} (hs : Invariant s) (hpins : s.params.pinsOk = true) (ha : s.agenda = [])
    (hp : s.phase = .shift ∨ s.phase = .trail) : ∃ j t, j ≤ pulsesLeft s ∧ runSteps j s = .next t ∧ t.phase = .idle := by
  induction hm : pulsesLeft s generalizing s with
  | zero => exact absurd hm (Nat.ne_of_gt (pulsesLeft_pos hs hp))
  | succ m ih =>
    have busy : s.phase ≠ .idle := by obtain hp | hp := hp <;> simp [hp]
    have keeps := engineStep_keeps busy
    obtain ⟨hidle, -⟩ | ⟨hp', hleft⟩ := engineStep_onePulse hs hp
    · exact ⟨1, _, by omega, runSteps_engine 0 hpins ha busy, hidle⟩
    · obtain ⟨j, t, hj, ht, hidle⟩ :=
        ih (engineStep_invariant hs) (keeps.params ▸ hpins) (keeps.agenda.trans ha) hp' (by omega)
      exact ⟨j + 1, t, by omega, (runSteps_engine j hpins ha busy).trans ht, hidle⟩

/-- Settles O42: each step of the run uses one of the pulses left. -/
theorem pulsePhasesBounded : Obligations.PulsePhasesBounded := by
  intro s hs hpins ha hp
  exact ⟨pulsesLeft_le hs (by obtain hp | hp := hp <;> simp [hp]), runSteps_pulses_end hs hpins ha hp⟩

/-! ### The end of WAIT (R65, R124) -/

/-- The ticks since `t_cmd`. -/
def waited (s : State) : Nat := (s.ts - s.tCmd).toNat

/-- A poll reads the clock after its ticks, and these add to the ticks since `t_cmd`, if the 64 bits hold the sum. -/
theorem pollStamp_sub_toNat {s : State} {c : Nat} {cs : List Nat} (hc : s.clockIn = c :: cs) (h : waited s + c < 2 ^ 64) :
    (pollStamp s - s.tCmd).toNat = waited s + c := by
  have hsub : pollStamp s - s.tCmd = (s.ts - s.tCmd) + BitVec.ofNat 64 c := by
    rw [pollStamp_cons hc]
    abel
  rw [hsub, BitVec.toNat_add, BitVec.toNat_ofNat, Nat.add_mod_mod]
  exact Nat.mod_eq_of_lt h

/-- A poll leaves WAIT, or it waits on before the deadline. -/
theorem engineStep_wait_cases {s : State} {c : Nat} {cs : List Nat} (hp : s.phase = .wait) (hc : s.clockIn = c :: cs)
    (h : waited s + c < 2 ^ 64) : (engineStep s).phase ≠ .wait ∨
      waited s + c < s.params.waitTimeout.val ∧ engineStep s = polled true (pollStamp s) s := by
  rw [engineStep_wait hp, ← pollStamp_sub_toNat hc h]
  obtain e | e | ⟨-, e⟩ | ⟨hk, e⟩ := waitStep_cases s
  · exact .inl (by rw [e]; simp)
  · exact .inl (by rw [e]; simp)
  · exact .inl (by rw [e]; simp)
  · exact .inr ⟨hk, e⟩

/-- With at least one tick before each of the next `m` polls, and no more than `m` ticks to the deadline, WAIT ends within them:
a poll that waits on takes a tick off what is left. -/
theorem runSteps_wait_ends {m : Nat} {s : State} (hpins : s.params.pinsOk = true) (ha : s.agenda = []) (hp : s.phase = .wait)
    (hm : 0 < m) (hlen : m ≤ s.clockIn.length) (htick : ∀ c ∈ s.clockIn.take m, 1 ≤ c)
    (hsum : waited s + (s.clockIn.take m).sum < 2 ^ 64) (hdue : s.params.waitTimeout.val ≤ waited s + m) :
    ∃ j t, j ≤ m ∧ runSteps j s = .next t ∧ t.phase ≠ .wait := by
  induction m generalizing s with
  | zero => exact absurd hm (lt_irrefl 0)
  | succ m ih =>
    obtain ⟨c, cs, hc⟩ := List.exists_cons_of_length_pos (show 0 < s.clockIn.length by omega)
    simp only [hc, List.take_succ_cons, List.sum_cons, List.forall_mem_cons, List.length_cons] at hlen htick hsum
    obtain ⟨hone, htick⟩ := htick
    have first : ∀ k, runSteps (k + 1) s = runSteps k (engineStep s) := fun k => runSteps_engine k hpins ha (by simp [hp])
    obtain hout | ⟨hearly, hon⟩ := engineStep_wait_cases hp hc (by omega)
    · exact ⟨1, _, by omega, first 0, hout⟩
    · have hclock : (polled true (pollStamp s) s).clockIn = cs := congrArg List.tail hc
      have hwaited : waited (polled true (pollStamp s) s) = waited s + c := pollStamp_sub_toNat hc (by omega)
      obtain ⟨j, t, hj, ht, hout⟩ := ih (s := polled true (pollStamp s) s) hpins ha hp (by omega) (by rw [hclock]; omega)
        (by rwa [hclock]) (by rw [hclock, hwaited]; omega) (by rw [hwaited]; exact le_trans hdue (by omega))
      exact ⟨j + 1, t, by omega, by rw [first, hon, ht], hout⟩

/-- Settles O43: `WAIT_TIMEOUT` + 1 polls reach the deadline from wherever in WAIT the READ stands. -/
theorem waitEndsByDeadline : Obligations.WaitEndsByDeadline := by
  intro s hpins ha hp hlen htick hsum
  exact runSteps_wait_ends hpins ha hp (Nat.succ_pos _) hlen htick hsum (by omega)

/-! ### The bits of the sample, most significant first (R68) -/

theorem msbFirst_concat (bits : List Level) (d : Level) : msbFirst (bits ++ [d]) = 2 * msbFirst bits + d.toNat := by
  simp [msbFirst]

theorem msbFirst_lt (bits : List Level) : msbFirst bits < 2 ^ bits.length := by
  induction bits using List.reverseRecOn with
  | nil => simp [msbFirst]
  | append_singleton bits d ih =>
    have hd := d.toNat_le
    rw [msbFirst_concat, List.length_append, List.length_singleton, pow_succ]
    omega

/-- Bit `k` sampled is bit `length - 1 - k` of the number. -/
theorem msbFirst_testBit (bits : List Level) (k : Nat) (hk : k < bits.length) :
    (msbFirst bits).testBit (bits.length - 1 - k) = bits[k] := by
  induction bits using List.reverseRecOn with
  | nil => simp at hk
  | append_singleton bits d ih =>
    rw [msbFirst_concat]
    rw [List.length_append, List.length_singleton] at hk ⊢
    by_cases hlast : k = bits.length
    · subst hlast
      cases d <;> simp [Nat.testBit_zero]
    · have hpos : bits.length + 1 - 1 - k = bits.length - 1 - k + 1 := by omega
      have hd := d.toNat_le
      have hhalf : (2 * msbFirst bits + d.toNat) / 2 = msbFirst bits := by omega
      rw [hpos, Nat.testBit_succ, hhalf, ih (by omega), List.getElem_append_left]

/-- The accumulator holds the number the bits stand for (R67, R68). -/
theorem foldl_shiftIn_ofNat (bits : List Level) (a : Nat) :
    bits.foldl shiftIn (BitVec.ofNat 24 a) = BitVec.ofNat 24 (bits.foldl (fun acc d => 2 * acc + d.toNat) a) := by
  induction bits generalizing a with
  | nil => rfl
  | cons d bits ih =>
    have hstep : shiftIn (BitVec.ofNat 24 a) d = BitVec.ofNat 24 (2 * a + d.toNat) := by
      rw [shiftIn_eq_ofNat]
      apply BitVec.eq_of_toNat_eq
      simp only [BitVec.toNat_ofNat]
      omega
    rw [List.foldl_cons, List.foldl_cons, hstep, ih]

theorem foldl_shiftIn_zero (bits : List Level) : bits.foldl shiftIn 0 = BitVec.ofNat 24 (msbFirst bits) :=
  foldl_shiftIn_ofNat bits 0

theorem sample_toNat {bits : List Level} (hn : bits.length = 24) : (BitVec.ofNat 24 (msbFirst bits)).toNat = msbFirst bits :=
  Nat.mod_eq_of_lt (hn ▸ msbFirst_lt bits)

/-! ### Runs of pulses -/

@[simp] theorem shifted_bitCount (d : Level) (s : State) : (shifted d s).bitCount = s.bitCount + 1 := rfl
@[simp] theorem trailed_trailCount (s : State) : (trailed s).trailCount = s.trailCount + 1 := rfl
@[simp] theorem trailed_curN (s : State) : (trailed s).curN = s.curN := rfl

/-- What the last data pulses of a READ leave, `bits` being what they sample (R67). -/
def gathered (bits : List Level) (s : State) : State :=
  { s with phase := .trail, bitCount := 24, trailCount := 0, shift := bits.foldl shiftIn s.shift, clkOut := false
           trace := s.trace ++ bits.flatMap dataPulseEvents, gpioIn := s.gpioIn.drop (3 * bits.length)
           dataIn := s.dataIn.drop bits.length, freeCount := s.freeCount + 4 * bits.length }

/-- The data pulses that are left, with every answer `ok`, gather their bits and enter TRAIL (R67). -/
theorem runSteps_dataPulses {s : State} {bits ds : List Level} (hpins : s.params.pinsOk = true) (ha : s.agenda = [])
    (hp : s.phase = .shift) (hok : OkAnswers (3 * bits.length) s) (hd : s.dataIn = bits ++ ds) (hne : bits ≠ [])
    (hn : s.bitCount + bits.length = 24) : runSteps bits.length s = .next (gathered bits s) := by
  induction bits generalizing s with
  | nil => exact absurd rfl hne
  | cons d bits ih =>
    rw [List.length_cons] at hok hn ⊢
    have hstep := shiftStep_ok (hok.mono (by omega)) hd
    rw [runSteps_engine _ hpins ha (by simp [hp]), engineStep_shift hp, hstep]
    cases bits with
    | nil =>
      have hlast : s.bitCount = 23 := Nat.succ.inj hn
      rw [if_pos (by exact hn)]
      simp [shifted, gathered, hlast]
    | cons d' bits =>
      rw [List.length_cons] at hok hn
      rw [if_neg (by omega), ih (s := shifted d s) hpins ha hp (hok.drop rfl rfl) (congrArg List.tail hd) (by simp)
        (by rw [shifted_bitCount, List.length_cons]; omega)]
      simp [shifted, gathered]
      omega

/-- What `m + 1` trailing pulses leave (R70). -/
theorem trailed_iterate (m : Nat) (s : State) :
    trailed^[m + 1] s = { s with
      trailCount := s.trailCount + (m + 1), clkOut := false
      trace := s.trace ++ (List.replicate (m + 1) trailPulseEvents).flatten, gpioIn := s.gpioIn.drop (2 * (m + 1))
      freeCount := s.freeCount + 2 * (m + 1) } := by
  induction m generalizing s with
  | zero => simp [trailed]
  | succ m ih =>
    rw [Function.iterate_succ_apply, ih]
    simp [trailed, List.replicate_succ]
    omega

/-- The trailing pulses that are left, with every answer `ok`, end the READ (R70). -/
theorem runSteps_trailPulses {m : Nat} {s : State} (hpins : s.params.pinsOk = true) (ha : s.agenda = [])
    (hp : s.phase = .trail) (hok : OkAnswers (2 * (m + 1)) s) (hn : s.trailCount + (m + 1) = s.curN.toNat - 24) :
    runSteps (m + 1) s = .next (finish (takeConv (trailed^[m + 1] s))) := by
  induction m generalizing s with
  | zero => rw [runSteps_engine _ hpins ha (by simp [hp]), engineStep_trail hp, trailStep_ok hok, if_pos hn]; rfl
  | succ m ih =>
    rw [runSteps_engine _ hpins ha (by simp [hp]), engineStep_trail hp, trailStep_ok (hok.mono (by omega)), if_neg (by omega)]
    exact ih (s := trailed s) hpins ha hp (hok.drop rfl rfl) (by rw [trailed_trailCount, trailed_curN]; omega)

/-- Settles O33: the run gathers the bits, and the number they stand for has them in order. -/
theorem shiftClosedForm : Obligations.ShiftClosedForm := by
  intro s bits ds hpins ha hp hbits hshift hok hd hn
  have hrun := runSteps_dataPulses hpins ha hp (by rw [hn]; exact hok) hd (by rintro rfl; simp at hn) (by omega)
  rw [hn, gathered, hshift, foldl_shiftIn_zero] at hrun
  refine ⟨_, hrun, rfl, rfl, sample_toNat hn, fun k hk => ?_, rfl⟩
  have hpos : 23 - k = bits.length - 1 - k := by omega
  rw [hpos, BitVec.getLsbD_ofNat, msbFirst_testBit bits k hk]
  simp
  omega

/-! ### What the lines show (R56, R75) -/

@[simp] theorem lineEvents_nil : lineEvents [] = [] := rfl
@[simp] theorem lineEvents_ts (x : Stamp) (es : List Event) : lineEvents (.ts x :: es) = lineEvents es := rfl
@[simp] theorem lineEvents_clkSet (b : Level) (es : List Event) :
    lineEvents (.clkSet b :: es) = .clkSet b :: lineEvents es := rfl
@[simp] theorem lineEvents_sample (d : Level) (es : List Event) :
    lineEvents (.sample d :: es) = .sample d :: lineEvents es := rfl
@[simp] theorem lineEvents_append (es fs : List Event) : lineEvents (es ++ fs) = lineEvents es ++ lineEvents fs :=
  List.filter_append ..

@[simp] theorem lineEvents_dataPulses (bits : List Level) :
    lineEvents (bits.flatMap dataPulseEvents) = bits.flatMap dataPulseEvents := by
  induction bits with
  | nil => rfl
  | cons d bits ih => rw [List.flatMap_cons, lineEvents_append, ih]; rfl

@[simp] theorem lineEvents_trailPulses (m : Nat) :
    lineEvents (List.replicate m trailPulseEvents).flatten = (List.replicate m trailPulseEvents).flatten := by
  induction m with
  | zero => rfl
  | succ m ih => rw [List.replicate_succ, List.flatten_cons, lineEvents_append, ih]; rfl

/-- Timestamps are no edges. -/
theorem risingEdges_lineEvents (l : Level) (es : List Event) : risingEdges l (lineEvents es) = risingEdges l es := by
  induction es generalizing l with
  | nil => rfl
  | cons e es ih =>
    cases e with
    | clkSet b => simp only [lineEvents_clkSet, risingEdges, ih]
    | _ => exact ih _

theorem risingEdges_samples (l d : Level) (k : Nat) (es : List Event) :
    risingEdges l (List.replicate k (.sample d) ++ es) = risingEdges l es := by
  induction k with
  | zero => rfl
  | succ k ih => rw [List.replicate_succ, List.cons_append]; exact ih

/-- A data pulse has one rising edge, and so has a trailing pulse (R75). -/
theorem risingEdges_dataPulse (d : Level) (es : List Event) :
    risingEdges false (dataPulseEvents d ++ es) = 1 + risingEdges false es := by
  simp [dataPulseEvents, risingEdges]

theorem risingEdges_trailPulse (es : List Event) :
    risingEdges false (trailPulseEvents ++ es) = 1 + risingEdges false es := by
  simp [trailPulseEvents, risingEdges]

theorem risingEdges_dataPulses (bits : List Level) (es : List Event) :
    risingEdges false (bits.flatMap dataPulseEvents ++ es) = bits.length + risingEdges false es := by
  induction bits with
  | nil => simp
  | cons d bits ih =>
    rw [List.flatMap_cons, List.append_assoc, risingEdges_dataPulse, ih, List.length_cons]
    omega

theorem risingEdges_trailPulses (m : Nat) : risingEdges false (List.replicate m trailPulseEvents).flatten = m := by
  induction m with
  | zero => rfl
  | succ m ih => rw [List.replicate_succ, List.flatten_cons, risingEdges_trailPulse, ih, Nat.add_comm]

/-! ### From the CMD write to the last poll (R64, R65) -/

/-- The next step is the CMD write of a valid READ, and it is all the agenda holds, so that the Engine takes the steps after it
(log 2). -/
structure StartsRead (n : Nat) (s : State) : Prop where
  pins   : s.params.pinsOk = true
  idle   : s.phase = .idle
  legal  : n = 25 ∨ n = 26 ∨ n = 27
  agenda : s.agenda = [.regWrite 0 (encode (.read n))]

theorem StartsRead.step {n : Nat} {s : State} (h : StartsRead n s) : step s = .next (accept n { s with agenda := [] }) := by
  obtain ⟨hpins, hi, hn, ha⟩ := h
  have hd : decode (encode (.read n)) = .ok (.read n) := decodeOfEncode _ (by simp only [Instr.wf, decide_eq_true_eq]; omega)
  rw [commandStepRunsDecoded s _ [] _ hpins hi ha hd, exec_read_legal hn]

theorem stamp_sub (x : Stamp) (a b : Nat) : x + BitVec.ofNat 64 (a + b) - (x + BitVec.ofNat 64 a) = BitVec.ofNat 64 b := by
  rw [BitVec.ofNat_add]
  abel

/-- `u` is `s` in WAIT of the READ it has started, `ticks` after acceptance; the trace has grown by `es` (R64). -/
def InWait (n c0 ticks : Nat) (es : List Event) (s u : State) : Prop :=
  u = { s with
    agenda := [], phase := .wait, curN := BitVec.ofNat 5 n, bitCount := 0, trailCount := 0, shift := 0
    tCmd := s.ts + BitVec.ofNat 64 c0, ts := s.ts + BitVec.ofNat 64 (c0 + ticks), clkOut := false, trace := s.trace ++ es
    dataIn := u.dataIn, clockIn := u.clockIn, gpioIn := u.gpioIn, freeCount := u.freeCount }

/-- The CMD write, with CLK driven low (R64). -/
theorem runSteps_accepted {n c0 : Nat} {cs : List Nat} {s : State} (h : StartsRead n s) (hok : OkAnswers 1 s)
    (hc : s.clockIn = c0 :: cs) : ∃ u es, runSteps 1 s = .next u ∧ InWait n c0 0 es s u ∧ lineEvents es = [.clkSet false] ∧
      u.dataIn = s.dataIn ∧ u.clockIn = cs ∧ u.gpioIn = s.gpioIn.tail := by
  have hticks : nextTicks { s with agenda := [] } = c0 := nextTicks_cons (by exact hc)
  have hacc : OkAnswers 1 (clockStep { s with agenda := [] }) := hok
  refine ⟨_, [.ts (s.ts + BitVec.ofNat 64 c0), .clkSet false], runSteps_next 0 h.step, ?_, rfl, ?_⟩ <;>
    rw [accept_ok hacc.head]
  · rw [InWait, hticks]
    rfl
  · exact ⟨rfl, congrArg List.tail hc, rfl⟩

section
variable {n c0 ticks c : Nat} {es : List Event} {ds : List Level} {cs : List Nat} {s u : State}
  (hw : InWait n c0 ticks es s u)
include hw

theorem InWait.phase : u.phase = .wait := by rw [hw]

theorem InWait.agenda : u.agenda = [] := by rw [hw]

theorem InWait.params : u.params = s.params := by rw [hw]

/-- With nothing on the agenda the next step is a poll. -/
theorem InWait.runSteps_succ (hpins : s.params.pinsOk = true) (k : Nat) :
    runSteps (k + 1) u = runSteps k (waitStep u) := by
  rw [runSteps_engine k (hw.params ▸ hpins) hw.agenda (by simp [hw.phase]), engineStep_wait hw.phase]

theorem InWait.pollStamp_eq (hc : u.clockIn = c :: cs) : pollStamp u = s.ts + BitVec.ofNat 64 (c0 + (ticks + c)) := by
  have hts : u.ts = s.ts + BitVec.ofNat 64 (c0 + ticks) := by rw [hw]
  rw [pollStamp_cons hc, hts, ← Nat.add_assoc, BitVec.ofNat_add (c0 + ticks) c, add_assoc]

/-- The ticks a poll compares with the deadline. -/
theorem InWait.elapsed (hc : u.clockIn = c :: cs) (hlt : ticks + c < 2 ^ 64) :
    (pollStamp u - u.tCmd).toNat = ticks + c := by
  have hcmd : u.tCmd = s.ts + BitVec.ofNat 64 c0 := by rw [hw]
  rw [hw.pollStamp_eq hc, hcmd, stamp_sub]
  exact Nat.mod_eq_of_lt hlt

/-- A poll takes the clock on and leaves its sample and its timestamp in the trace (R65). -/
theorem InWait.polled (d : Level) (hc : u.clockIn = c :: cs) :
    InWait n c0 (ticks + c) (es ++ [.sample d, .ts (pollStamp u)]) s (Machine.polled d (pollStamp u) u) := by
  have htrace : u.trace = s.trace ++ es := by rw [hw]
  rw [InWait, Machine.polled, hw.pollStamp_eq hc, htrace, List.append_assoc]
  rw [hw]

end

/-- Polls that see DATA high before the deadline leave the READ in WAIT (R65). -/
theorem runSteps_polls {n c0 ticks : Nat} {es : List Event} {ds : List Level} {polls cs : List Nat} {s u : State}
    (hw : InWait n c0 ticks es s u) (hpins : s.params.pinsOk = true) (hok : OkAnswers polls.length u)
    (hd : u.dataIn = List.replicate polls.length true ++ ds) (hc : u.clockIn = polls ++ cs)
    (hearly : 0 < polls.length → ticks + polls.sum < s.params.waitTimeout.val) :
    ∃ v es', runSteps polls.length u = .next v ∧ InWait n c0 (ticks + polls.sum) es' s v ∧
      lineEvents es' = lineEvents es ++ List.replicate polls.length (.sample true) ∧
      v.dataIn = ds ∧ v.clockIn = cs ∧ v.gpioIn = u.gpioIn.drop polls.length := by
  induction polls generalizing ticks es u with
  | nil => exact ⟨u, es, rfl, hw, by simp, hd, hc, rfl⟩
  | cons c polls ih =>
    rw [List.length_cons] at hok hd hearly ⊢
    rw [List.sum_cons] at hearly ⊢
    have hlt := hearly (Nat.succ_pos _)
    have hmax := s.params.waitTimeout.isLt
    have hhigh : nextLevel (takeAnswer u) = true := nextLevel_cons (s := takeAnswer u) hd
    have hstep := waitStep_waiting hok.head hhigh (by rw [hw.elapsed hc (by omega), hw.params]; omega)
    obtain ⟨v, es', hv, hwv, hline, hdv, hcv, hgv⟩ := ih (hw.polled true hc) (hok.tail rfl rfl) (congrArg List.tail hd)
      (congrArg List.tail hc) (by omega)
    refine ⟨v, es', by rw [hw.runSteps_succ hpins, hstep, hv], by rwa [← Nat.add_assoc], ?_, hdv, hcv, ?_⟩
    · simp [hline, List.replicate_succ]
    · simp [hgv, polled]

/-- A READ up to its last poll (R64, R65). -/
theorem runSteps_read_polls {n c0 : Nat} {ds : List Level} {polls cs : List Nat} {s : State} (h : StartsRead n s)
    (hok : OkAnswers (polls.length + 1) s) (hd : s.dataIn = List.replicate polls.length true ++ ds)
    (hc : s.clockIn = c0 :: (polls ++ cs)) (hearly : 0 < polls.length → polls.sum < s.params.waitTimeout.val) :
    ∃ u es, runSteps (polls.length + 1) s = .next u ∧ InWait n c0 polls.sum es s u ∧
      lineEvents es = .clkSet false :: List.replicate polls.length (.sample true) ∧
      u.dataIn = ds ∧ u.clockIn = cs ∧ u.gpioIn = s.gpioIn.drop (polls.length + 1) := by
  obtain ⟨u, es, hu, hw, hline, hdu, hcu, hgu⟩ := runSteps_accepted h (hok.mono (by omega)) hc
  obtain ⟨v, es', hv, hwv, hline', hdv, hcv, hgv⟩ :=
    runSteps_polls hw h.pins (hok.tail hw.params hgu) (hdu.trans hd) hcu (by simpa using hearly)
  refine ⟨v, es', ?_, by simpa using hwv, by rw [hline', hline]; rfl, hdv, hcv, by simp [hgv, hgu]⟩
  rw [Nat.add_comm, runSteps_add hu, hv]

/-- A READ up to its last poll, as the statements about whole READs list the polls: `c` ticks pass before the last one, and the
polls before it are before the deadline. -/
theorem runSteps_read_toLastPoll {n k c0 : Nat} {d : Level} {ds : List Level} {polls cs : List Nat} {s : State}
    (h : StartsRead n s) (hok : OkAnswers (k + 1) s) (hd : s.dataIn = List.replicate k true ++ d :: ds)
    (hc : s.clockIn = c0 :: (polls ++ cs)) (hlen : polls.length = k + 1)
    (hearly : 0 < k → (polls.take k).sum < s.params.waitTimeout.val) :
    ∃ u es early c, polls.sum = early + c ∧ runSteps (k + 1) s = .next u ∧ InWait n c0 early es s u ∧
      lineEvents es = .clkSet false :: List.replicate k (.sample true) ∧
      u.dataIn = d :: ds ∧ u.clockIn = c :: cs ∧ u.gpioIn = s.gpioIn.drop (k + 1) := by
  obtain ⟨early, c, rfl⟩ : ∃ early c, polls = early ++ [c] :=
    ⟨_, _, (List.dropLast_append_getLast (List.ne_nil_of_length_eq_add_one hlen)).symm⟩
  obtain rfl : early.length = k := by simpa using hlen
  rw [List.take_left] at hearly
  rw [List.append_assoc] at hc
  obtain ⟨u, es, hu⟩ := runSteps_read_polls h hok hd hc hearly
  exact ⟨u, es, early.sum, c, by simp, hu⟩

/-- Settles O36: after the polls before the deadline the last one is at or past it, and completes TIMEOUT. -/
theorem timedOutReadMakesNoEdge : Obligations.TimedOutReadMakesNoEdge := by
  intro s n k ds c0 polls cs hpins hi hn ha hok hd hc hlen hearly hdue hlt
  rw [List.replicate_succ', List.append_assoc] at hd
  obtain ⟨u, es, early, c, hsum, hu, hw, hline, hdu, hcu, hgu⟩ :=
    runSteps_read_toLastPoll ⟨hpins, hi, hn, ha⟩ (hok.mono (by omega)) hd hc hlen hearly
  rw [hsum] at hdue hlt ⊢
  have hoku : OkAnswers 1 u := OkAnswers.drop (k := 1) (j := k + 1) (by rwa [Nat.add_comm 1]) hw.params hgu
  have hhigh : nextLevel (takeAnswer u) = true := nextLevel_cons (s := takeAnswer u) hdu
  have hstep := waitStep_expired hoku.head hhigh (by rw [hw.elapsed hcu hlt, hw.params]; exact hdue)
  have hv := hw.polled true hcu
  have hdv : (polled true (pollStamp u) u).dataIn = ds := congrArg List.tail hdu
  have hcv : (polled true (pollStamp u) u).clockIn = cs := congrArg List.tail hcu
  have hlines : lineEvents (es ++ [.sample true, .ts (pollStamp u)]) =
      .clkSet false :: List.replicate (k + 1) (.sample true) := by
    rw [lineEvents_append, hline, List.replicate_succ']
    rfl
  refine ⟨complete .timeout (polled true (pollStamp u) u), es ++ [.sample true, .ts (pollStamp u)], ?_, ?_, hlines, ?_⟩
  · rw [runSteps_add (k := 1) hu, hw.runSteps_succ hpins, hstep]
    rfl
  · rw [InWait, hdv, hcv] at hv
    rw [hv]
    rfl
  · have hsamples := risingEdges_samples false true (k + 1) []
    rw [List.append_nil] at hsamples
    rw [← risingEdges_lineEvents, hlines]
    simp [risingEdges, hsamples]

/-! ### A whole READ (R62, R64–R74) -/

/-- `u` is `s` in SHIFT of the READ it has started, before the first pulse: DATA was low `ticks` after acceptance (R65). -/
def ShiftEntered (n c0 ticks : Nat) (es : List Event) (s u : State) : Prop :=
  u = { s with
    agenda := [], phase := .shift, curN := BitVec.ofNat 5 n, bitCount := 0, trailCount := 0, shift := 0
    tCmd := s.ts + BitVec.ofNat 64 c0, tReady := s.ts + BitVec.ofNat 64 (c0 + ticks)
    ts := s.ts + BitVec.ofNat 64 (c0 + ticks), clkOut := false, trace := s.trace ++ es
    dataIn := u.dataIn, clockIn := u.clockIn, gpioIn := u.gpioIn, freeCount := u.freeCount }

/-- The state a ready poll leaves (R65). -/
def readied (u : State) : State := { polled false (pollStamp u) u with tReady := pollStamp u, phase := .shift }

theorem InWait.readied {n c0 ticks c : Nat} {es : List Event} {cs : List Nat} {s u : State} (hw : InWait n c0 ticks es s u)
    (hc : u.clockIn = c :: cs) :
    ShiftEntered n c0 (ticks + c) (es ++ [.sample false, .ts (pollStamp u)]) s (Machine.readied u) := by
  have hv := hw.polled false hc
  rw [hw.pollStamp_eq hc] at hv
  rw [ShiftEntered, Machine.readied, hw.pollStamp_eq hc, hv]

/-- A READ up to the poll that is ready (R64, R65). -/
theorem runSteps_read_ready {n k c0 : Nat} {ds : List Level} {polls cs : List Nat} {s : State}
    (h : StartsRead n s) (hok : OkAnswers (k + 2) s) (hd : s.dataIn = List.replicate k true ++ false :: ds)
    (hc : s.clockIn = c0 :: (polls ++ cs)) (hlen : polls.length = k + 1)
    (hearly : 0 < k → (polls.take k).sum < s.params.waitTimeout.val) :
    ∃ u es, runSteps (k + 2) s = .next u ∧ ShiftEntered n c0 polls.sum es s u ∧
      lineEvents es = .clkSet false :: (List.replicate k (.sample true) ++ [.sample false]) ∧
      u.dataIn = ds ∧ u.clockIn = cs ∧ u.gpioIn = s.gpioIn.drop (k + 2) := by
  obtain ⟨u, es, early, c, hsum, hu, hw, hline, hdu, hcu, hgu⟩ :=
    runSteps_read_toLastPoll h (hok.mono (by omega)) hd hc hlen hearly
  have hoku : OkAnswers 1 u := OkAnswers.drop (k := 1) (j := k + 1) (by rwa [Nat.add_comm 1]) hw.params hgu
  have hlow : nextLevel (takeAnswer u) = false := nextLevel_cons (s := takeAnswer u) hdu
  refine ⟨readied u, es ++ [.sample false, .ts (pollStamp u)], ?_, hsum ▸ hw.readied hcu, ?_, congrArg List.tail hdu,
    congrArg List.tail hcu, by simp [readied, polled, hgu]⟩
  · rw [runSteps_add (k := 1) hu, hw.runSteps_succ h.pins, waitStep_ready hoku.head hlow]
    rfl
  · rw [lineEvents_append, hline]
    rfl

/-- `v` is `s` after the last pulse of the READ it has started, before the READ finishes (R67, R70). -/
def PulsesMade (n c0 ticks : Nat) (bits : List Level) (es : List Event) (s v : State) : Prop :=
  v = { s with
    agenda := [], phase := .trail, curN := BitVec.ofNat 5 n, bitCount := 24, trailCount := n - 24
    shift := BitVec.ofNat 24 (msbFirst bits)
    tCmd := s.ts + BitVec.ofNat 64 c0, tReady := s.ts + BitVec.ofNat 64 (c0 + ticks)
    ts := s.ts + BitVec.ofNat 64 (c0 + ticks), clkOut := false, trace := s.trace ++ es
    dataIn := v.dataIn, clockIn := v.clockIn, gpioIn := v.gpioIn, freeCount := v.freeCount }

/-- The pulses of a READ: 24 data pulses, then the trailing ones, the last of which finishes it (R67, R70, R73). -/
theorem ShiftEntered.runSteps_pulses {n c0 ticks : Nat} {es : List Event} {bits ds : List Level} {s u : State}
    (hu : ShiftEntered n c0 ticks es s u) (h : StartsRead n s) (hok : OkAnswers (2 * n + 24) u)
    (hd : u.dataIn = bits ++ ds) (hbits : bits.length = 24) :
    ∃ v, runSteps n u = .next (finish (takeConv v)) ∧
      PulsesMade n c0 ticks bits (es ++ bits.flatMap dataPulseEvents ++ (List.replicate (n - 24) trailPulseEvents).flatten) s v ∧
      v.dataIn = ds ∧ v.clockIn = u.clockIn := by
  have hlegal := h.legal
  obtain ⟨m, rfl⟩ : ∃ m, n = 24 + (m + 1) := ⟨n - 25, by omega⟩
  have hpins : u.params.pinsOk = true := by rw [hu]; exact h.pins
  have hphase : u.phase = .shift := by rw [hu]
  have hagenda : u.agenda = [] := by rw [hu]
  have hcount : u.bitCount = 0 := by rw [hu]
  have hshift : u.shift = 0 := by rw [hu]
  have hcur : u.curN.toNat = 24 + (m + 1) := by rw [hu]; exact operand_toNat (by omega)
  have htrace : u.trace = s.trace ++ es := by rw [hu]
  have hdata := runSteps_dataPulses hpins hagenda hphase (hok.mono (by omega)) hd
    (List.ne_nil_of_length_eq_add_one hbits) (by omega)
  have hokt : OkAnswers (2 * (m + 1)) (gathered bits u) :=
    OkAnswers.drop (j := 3 * bits.length) (hok.mono (by omega)) rfl rfl
  have htrail := runSteps_trailPulses (s := gathered bits u) hpins hagenda rfl hokt
    (by show 0 + (m + 1) = u.curN.toNat - 24; omega)
  rw [hbits] at hdata
  refine ⟨_, (runSteps_add hdata).trans htrail, ?_, ?_, ?_⟩ <;> rw [trailed_iterate]
  · rw [PulsesMade, gathered, hshift, foldl_shiftIn_zero, htrace, hu]
    simp
  · simp [gathered, hd]
  · rfl

/-- A whole READ with every answer `ok`, up to what finishes it; `es` is what it leaves in the trace till then. -/
theorem runSteps_read {n k c0 : Nat} {bits ds : List Level} {polls cs : List Nat} {s : State} (h : StartsRead n s)
    (hok : OkAnswers (k + 2 * n + 26) s) (hd : s.dataIn = List.replicate k true ++ false :: (bits ++ ds))
    (hbits : bits.length = 24) (hc : s.clockIn = c0 :: (polls ++ cs)) (hlen : polls.length = k + 1)
    (hearly : 0 < k → (polls.take k).sum < s.params.waitTimeout.val) :
    ∃ v es, runSteps (k + 2 + n) s = .next (finish (takeConv v)) ∧ PulsesMade n c0 polls.sum bits es s v ∧
      v.dataIn = ds ∧ v.clockIn = cs ∧
      lineEvents es = .clkSet false :: (List.replicate k (.sample true) ++ .sample false ::
        (bits.flatMap dataPulseEvents ++ (List.replicate (n - 24) trailPulseEvents).flatten)) := by
  obtain ⟨u, es, hu, hs, hline, hdu, hcu, hgu⟩ := runSteps_read_ready h (hok.mono (by omega)) hd hc hlen hearly
  have hoku : OkAnswers (2 * n + 24) u :=
    OkAnswers.drop (j := k + 2) (hok.mono (by omega)) (by rw [hs]) hgu
  obtain ⟨v, hv, hm, hdv, hcv⟩ := hs.runSteps_pulses h hoku hdu hbits
  exact ⟨v, _, (runSteps_add hu).trans hv, hm, hdv, hcv.trans hcu, by simp [hline]⟩

/-- A duration is the ticks between its timestamps (R88). -/
theorem duration_ticks (x : Stamp) (a b : Nat) :
    duration (x + BitVec.ofNat 64 (a + b)) (x + BitVec.ofNat 64 a) = BitVec.ofNat 32 b := by
  rw [duration, stamp_sub, BitVec.setWidth_ofNat_of_le (by decide)]

section
variable {x : Stamp} {a cConv cDone : Nat} {cs : List Nat} {v : State}

theorem convStamp_eq (ht : v.ts = x + BitVec.ofNat 64 a) (hc : v.clockIn = cConv :: cs) :
    convStamp v = x + BitVec.ofNat 64 (a + cConv) := by
  rw [convStamp, ht, nextTicks_cons hc, BitVec.ofNat_add, add_assoc]

theorem doneStamp_eq (ht : v.ts = x + BitVec.ofNat 64 a) (hc : v.clockIn = cConv :: cDone :: cs) :
    doneStamp v = x + BitVec.ofNat 64 (a + cConv + cDone) := by
  have hticks : nextTicks (clockStep v) = cDone := nextTicks_cons (congrArg List.tail hc)
  rw [doneStamp, convStamp_eq ht hc, hticks, BitVec.ofNat_add (a + cConv), add_assoc]

end

/-- Settles O34: the finish after the last pulse writes the bits gathered and the durations between the timestamps taken. -/
theorem readDeliversSample : Obligations.ReadDeliversSample := by
  intro s n k bits ds c0 cConv cDone polls cs hpins hi hn ha hok hd hbits hc hlen hearly
  obtain ⟨v, es, hv, hm, hdv, hcv, -⟩ := runSteps_read ⟨hpins, hi, hn, ha⟩ hok hd hbits hc hlen hearly
  have hts : v.ts = s.ts + BitVec.ofNat 64 (c0 + polls.sum) := by rw [hm]
  have htotal : duration (s.ts + BitVec.ofNat 64 (c0 + polls.sum + cConv + cDone)) (s.ts + BitVec.ofNat 64 c0) =
      BitVec.ofNat 32 (polls.sum + cConv + cDone) := by
    rw [← duration_ticks s.ts c0, ← Nat.add_assoc, ← Nat.add_assoc]
  rw [finish_takeConv_eq, convStamp_eq hts hcv, doneStamp_eq hts hcv] at hv
  refine ⟨_, hv, ?_, ?_⟩
  · rw [PulsesMade, hdv, hcv] at hm
    rw [hm]
    simp [duration_ticks, htotal]
  · have hshift : v.shift = BitVec.ofNat 24 (msbFirst bits) := by rw [hm]
    show (sampleRaw v.shift).toNat = msbFirst bits
    rw [sampleRaw, BitVec.toNat_setWidth_of_le (by decide), hshift, sample_toNat hbits]

/-- Settles O35: the finish leaves the lines alone, and of the events before it each pulse has one rising edge. -/
theorem readLineAccounting : Obligations.ReadLineAccounting := by
  intro s n k bits ds c0 polls cs hpins hi _ hn ha hok hd hbits hc hlen hearly
  obtain ⟨v, es, hv, hm, -, -, hline⟩ := runSteps_read ⟨hpins, hi, hn, ha⟩ hok hd hbits hc hlen hearly
  have htrace : v.trace = s.trace ++ es := by rw [hm]
  rw [finish_takeConv_eq] at hv
  have hlines : lineEvents (es ++ [.ts (convStamp v), .ts (doneStamp v)]) = lineEvents es := by simp
  refine ⟨_, es ++ [.ts (convStamp v), .ts (doneStamp v)], hv, by simp [htrace], hlines.trans hline, ?_, by rw [hm]⟩
  rw [← risingEdges_lineEvents, hlines, hline]
  simp [risingEdges, risingEdges_samples, risingEdges_dataPulses, risingEdges_trailPulses]
  omega

end Sys2Proof.Machine
end

section
/-! The statements of `43_mode_selector.md`: ENCODE and DECODE read one table in its two directions (R78, R80, R81, R83). -/

namespace Sys2Proof.Machine

/-! ### A command that completes at once while IDLE (R96) -/

theorem completeWith_ok_idle {s : State} (hi : s.phase = .idle) (v : Word) :
    completeWith (.ok v) s = { s with result := v, code := .ok, valid := true } :=
  complete_idle (s := { s with result := v }) hi .ok

theorem completeWith_error_idle {s : State} (hi : s.phase = .idle) (c : Code) :
    completeWith (.error c) s = { s with code := c, valid := true } :=
  complete_idle hi c

/-! ### The rows of the mode table (R78): each is found from its mode and from its pulse count, and nothing else is found -/

theorem encodeOutcome_row : ∀ r ∈ modeTable, encodeOutcome r.channel 0 r.gain = .ok (BitVec.ofNat 32 r.pulses) := by decide

theorem decodeOutcome_row : ∀ r ∈ modeTable, decodeOutcome r.pulses = .ok ((modeCode r.channel 0 r.gain).setWidth 32) := by
  decide

theorem toNat_ofNat_pulses : ∀ r ∈ modeTable, (BitVec.ofNat 32 r.pulses).toNat = r.pulses := by decide

theorem exists_row_of_pulses {n : Nat} (hn : n = 25 ∨ n = 26 ∨ n = 27) : ∃ r ∈ modeTable, r.pulses = n := by
  obtain rfl | rfl | rfl := hn <;> decide

theorem pulses_of_row : ∀ r ∈ modeTable, r.pulses = 25 ∨ r.pulses = 26 ∨ r.pulses = 27 := by decide

theorem exists_row_of_modeCode {c : BitVec 5} (hc : c = 0x00 ∨ c = 0x12 ∨ c = 0x01) :
    ∃ r ∈ modeTable, modeCode r.channel 0 r.gain = c := by
  obtain rfl | rfl | rfl := hc <;> decide

theorem exists_row_of_encodeOutcome_ok {ch : Channel} {x : BitVec 2} {g : GainField} {v : Word}
    (h : encodeOutcome ch x g = .ok v) :
    ∃ r ∈ modeTable, r.channel = ch ∧ x = 0 ∧ r.gain = g ∧ v = BitVec.ofNat 32 r.pulses := by
  rw [encodeOutcome] at h
  split_ifs at h with hbad
  split at h
  next r hr =>
    obtain ⟨hch, hg⟩ : r.channel = ch ∧ r.gain = g := by simpa using List.find?_some hr
    exact ⟨r, List.mem_of_find?_eq_some hr, hch, not_not.1 (not_or.1 hbad).1, hg, (Except.ok.inj h).symm⟩
  next => cases h

theorem exists_row_of_decodeOutcome_ok {n : Nat} {c : Word} (h : decodeOutcome n = .ok c) :
    ∃ r ∈ modeTable, r.pulses = n ∧ c = (modeCode r.channel 0 r.gain).setWidth 32 := by
  rw [decodeOutcome] at h
  split at h
  next r hr =>
    exact ⟨r, List.mem_of_find?_eq_some hr, by simpa using List.find?_some hr, (Except.ok.inj h).symm⟩
  next => cases h

theorem decodeOutcome_illegal {n : Nat} (hn : ¬ (n = 25 ∨ n = 26 ∨ n = 27)) : decodeOutcome n = .error .invalidMode := by
  cases h : decodeOutcome n with
  | ok c =>
    obtain ⟨r, hr, rfl, -⟩ := exists_row_of_decodeOutcome_ok h
    exact absurd (pulses_of_row r hr) hn
  | error c => rw [decodeOutcome_error h]

/-! ### The two round trips (R83) -/

theorem exec_encode_row {r : ModeRow} {c : BitVec 5} (hr : r ∈ modeTable) (hc : c = modeCode r.channel 0 r.gain) (s : State) :
    exec (encodeOperands c) s = .next (complete .ok { s with result := BitVec.ofNat 32 r.pulses }) := by
  rw [hc, encodeOperands_modeCode, exec, execEncode, encodeOutcome_row r hr, completeWith]

theorem exec_decode_row {r : ModeRow} {n : Nat} (hr : r ∈ modeTable) (hn : n = r.pulses) (s : State) :
    exec (.decode n) s = .next (complete .ok { s with result := (modeCode r.channel 0 r.gain).setWidth 32 }) := by
  rw [hn, exec, execDecode, decodeOutcome_row r hr, completeWith]

theorem setWidth_setWidth_modeCode (c : BitVec 5) : (c.setWidth 32).setWidth 5 = c := by
  rw [BitVec.setWidth_setWidth_of_le _ (by decide), BitVec.setWidth_eq]

/-- Settles O47: the two commands find the same rows, and a row holds a mode and its pulse count. -/
theorem modeBijection : Obligations.ModeBijection := by
  refine ⟨fun c s hc _ => ?_, fun n s hn _ => ?_, fun ch x g v h => ?_, fun n c h => ?_,
    fun n hn => ⟨decodeOutcome_illegal hn, exec_read_illegal hn⟩⟩
  · obtain ⟨r, hr, rfl⟩ := exists_row_of_modeCode hc
    exact ⟨_, _, exec_encode_row hr rfl s, rfl, rfl, exec_decode_row hr (toNat_ofNat_pulses r hr) _, rfl, rfl⟩
  · obtain ⟨r, hr, rfl⟩ := exists_row_of_pulses hn
    exact ⟨_, _, exec_decode_row hr rfl s, rfl, rfl, exec_encode_row hr (setWidth_setWidth_modeCode _) _, rfl, rfl⟩
  · obtain ⟨r, hr, rfl, rfl, rfl, rfl⟩ := exists_row_of_encodeOutcome_ok h
    rw [toNat_ofNat_pulses r hr, decodeOutcome_row r hr]
  · obtain ⟨r, hr, rfl, rfl⟩ := exists_row_of_decodeOutcome_ok h
    exact ⟨r.channel, r.gain, (setWidth_setWidth_modeCode _).symm, encodeOutcome_row r hr⟩

/-! ### ENCODE and DECODE by cases (R80, R81) -/

theorem encodeOutcome_eq (ch : Channel) (x : BitVec 2) (g : GainField) :
    encodeOutcome ch x g =
      if x ≠ 0 ∨ g = .reserved then .error .invalidArgument
      else if ch = .A ∧ g = .g128 then .ok 25
      else if ch = .A ∧ g = .g64 then .ok 27
      else if ch = .B ∧ g = .g32 then .ok 26
      else .error .invalidMode := by
  refine if_congr Iff.rfl rfl ?_
  cases ch <;> cases g <;> rfl

theorem decodeOutcome_eq (n : Nat) :
    decodeOutcome n =
      if n = 25 then .ok 0x00 else if n = 26 then .ok 0x12 else if n = 27 then .ok 0x01 else .error .invalidMode := by
  split_ifs with h25 h26 h27
  · rw [h25]; rfl
  · rw [h26]; rfl
  · rw [h27]; rfl
  · exact decodeOutcome_illegal (by omega)

/-- Settles O45: each outcome of the code is completed with, and at IDLE a completion leaves `phase` as it is. -/
theorem encodeOutcomes : Obligations.EncodeOutcomes := by
  intro ch x g s hi
  rw [exec, execEncode, encodeOutcome_eq]
  split_ifs
  · rw [completeWith_error_idle hi]
  · rw [completeWith_ok_idle hi]
  · rw [completeWith_ok_idle hi]
  · rw [completeWith_ok_idle hi]
  · rw [completeWith_error_idle hi]

/-- Settles O46, as O45 by the outcome of the count. -/
theorem decodeOutcomes : Obligations.DecodeOutcomes := by
  intro n s hi
  rw [exec, execDecode, decodeOutcome_eq]
  split_ifs
  · rw [completeWith_ok_idle hi]
  · rw [completeWith_ok_idle hi]
  · rw [completeWith_ok_idle hi]
  · rw [completeWith_error_idle hi]

end Sys2Proof.Machine
end

section
/-! The statements of `44_timing.md`: the Clock's step (R84), a timestamp read (R85, R86) and the sum of the durations (R91). -/

namespace Sys2Proof.Machine

/-! ### The Clock's own step (R84) -/

/-- `ts` counts modulo 2^64 (R84). -/
theorem stamp_add_toNat (x : Stamp) (k : Nat) : (x + BitVec.ofNat 64 k).toNat = (x.toNat + k) % 2 ^ 64 := by
  rw [BitVec.toNat_add, BitVec.toNat_ofNat, Nat.add_mod_mod]

theorem step_clockMove {s : State} {k : Nat} {rest : List Move} (hp : s.params.pinsOk = true)
    (ha : s.agenda = .clock k :: rest) : step s = .next (clockAdvance k { s with agenda := rest }) := by
  rw [step_pinsOk hp, ha]
  rfl

/-- While IDLE an agenda with no move left gives the step to the Clock (log 2). -/
theorem step_clockDefault {s : State} (hp : s.params.pinsOk = true) (ha : s.agenda = []) (hi : s.phase = .idle) :
    step s = .next (clockStep s) := by
  rw [step_pinsOk hp, ha]
  simp [defaultMove, (busy_false_iff s).2 hi]

/-- Settles O12: the agenda's move is `clockAdvance`, the default one `clockStep`, and `ts` is all either writes beside the
agenda and the draw. -/
theorem clockStepAdvancesTs : Obligations.ClockStepAdvancesTs := fun s hp =>
  ⟨fun k _ ha => ⟨s.ts + BitVec.ofNat 64 k, stamp_add_toNat s.ts k, step_clockMove hp ha⟩,
    fun ha hi => ⟨s.ts + BitVec.ofNat 64 (nextTicks s), stamp_add_toNat s.ts _, step_clockDefault hp ha hi⟩⟩

/-! ### A timestamp read (R85, R86) -/

/-- A read `m` ticks later, with `k` more drawn for the read itself, is `m + k` ticks further on (R86). -/
theorem tsRead_clockAdvance_fst {s : State} {k : Nat} {ks : List Nat} (m : Nat) (hc : s.clockIn = k :: ks) :
    (tsRead (clockAdvance m s)).1 = s.ts + BitVec.ofNat 64 (m + k) := by
  have hticks : nextTicks (clockAdvance m s) = k := nextTicks_cons hc
  rw [tsRead_eq, hticks, clockAdvance_ts, BitVec.ofNat_add, add_assoc]

/-- Settles O24: the first read leaves its timestamp in `ts`, and the second is counted from there. -/
theorem timestampReads : Obligations.TimestampReads := by
  intro s j k m ks hc
  have hnext : (tsRead s).2.clockIn = k :: ks := congrArg List.tail hc
  have hts : (tsRead s).1 = (tsRead s).2.ts := rfl
  refine ⟨hts, rfl, ?_⟩
  rw [tsRead_clockAdvance_fst m hnext, hts, add_sub_cancel_left, BitVec.toNat_ofNat]

/-! ### The sum of the durations (R88–R91) -/

/-- A duration below 2^32 is not truncated (R88). -/
theorem duration_add_toNat (x : Stamp) {a : Nat} (ha : a < 2 ^ 32) :
    (duration (x + BitVec.ofNat 64 a) x).toNat = a := by
  rw [duration, add_sub_cancel_left, BitVec.setWidth_ofNat_of_le (by decide), BitVec.toNat_ofNat, Nat.mod_eq_of_lt ha]

/-- Settles O44: each of the three intervals, and their sum, is below 2^32 and so reads as it is. -/
theorem totalIsWaitPlusConvPlusOverhead : Obligations.TotalIsWaitPlusConvPlusOverhead := by
  intro tCmd a b c hsum tReady tConv tDone
  have hwait : (duration tReady tCmd).toNat = a := duration_add_toNat tCmd (by omega)
  have hconv : (duration tConv tReady).toNat = b := duration_add_toNat tReady (by omega)
  have hover : (tDone - tConv).toNat = c := by
    rw [add_sub_cancel_left, BitVec.toNat_ofNat, Nat.mod_eq_of_lt (by omega)]
  have hdone : tDone = tCmd + BitVec.ofNat 64 (a + b + c) := by
    simp only [tDone, tConv, tReady, BitVec.ofNat_add, add_assoc]
  have htotal : (duration tDone tCmd).toNat = a + b + c := by rw [hdone, duration_add_toNat tCmd hsum]
  exact ⟨by rw [htotal, hwait, hconv, hover], hwait, hconv, hover⟩

end Sys2Proof.Machine
end

section
/-! The statements of `60_exceptions.md`: where every step is refused (R111), a refused primitive of a pulse (R96, R100), and where
TIMEOUT comes from (R66, R97). -/

namespace Sys2Proof.Machine

/-! ### The ill-formed pin assignment (R8, R111) -/

/-- The three causes of R111. -/
theorem Params.not_pinsOk_iff (p : Params) :
    ¬ p.pinsOk = true ↔ p.clockPin = p.dataPin ∨ p.clockPin ∉ p.platformPins ∨ p.dataPin ∉ p.platformPins := by
  simp only [Params.pinsOk, Bool.and_eq_true, bne_iff_ne, List.contains_iff_mem, ne_eq, not_and_or, not_not, or_assoc]

/-- A step from a well-formed configuration goes on or faults, so there is one refusal and one cause of it (R8, R111). -/
theorem step_refused_iff (s : State) (r : Refusal) :
    step s = .refused r ↔ r = .illFormedConfig ∧ ¬ s.params.pinsOk = true := by
  by_cases hp : s.params.pinsOk = true
  · refine iff_of_false (fun hr => ?_) (fun ⟨_, hn⟩ => hn hp)
    by_cases hne : s.phase = .idle ∧ s.agenda.head? = some .engine
    · obtain ⟨hi, ha⟩ := hne
      simp [step_engine_idle hp hi ha] at hr
    · obtain ⟨t, ht⟩ := step_goesOn hp hne
      simp [ht] at hr
  · simp [step_illFormed hp, hp, eq_comm]

/-- Settles O16: the one refusal there is has the three causes of R111. -/
theorem refusedExactlyWhenIllFormed : Obligations.RefusedExactlyWhenIllFormed := by
  intro s
  refine ⟨?_, fun m hr => ?_⟩
  · rw [← Params.not_pinsOk_iff, step_refused_iff]
    exact and_iff_right rfl
  · obtain ⟨hm, -⟩ := (step_refused_iff s _).1 hr
    exact Refusal.noConfusion hm

/-! ### A refused primitive of a pulse (R59, R96, R100) -/

/-- A pulse returns what its high phase gives, unless one of its two CLK writes is refused (R59). -/
theorem pulse_value {α : Type} (high : State → Option α × State) (s : State) :
    (pulse high s).1 =
      if nextAnswer s = .ok ∧ nextAnswer (high (pinWrite true s).2).2 = .ok then (high (pinWrite true s).2).1 else none := by
  obtain h | h := answer_cases (nextAnswer s)
  · simp [pulse_highDriven h Prod.mk.eta.symm, h]
  · simp [pulse_highRefused h, h]

theorem answer_ne_ok {a : Answer} (h : a = .fault) : a ≠ .ok := by simp [h]

/-- A data pulse any of whose three primitives is refused returns `fault` (R59). -/
theorem pulse_pinRead_refused {s : State}
    (h : nextAnswer s = .fault ∨ nextAnswer (takeAnswer s) = .fault ∨
      nextAnswer (takeLevel (takeAnswer (takeAnswer s))) = .fault) : (pulse pinRead s).1 = none := by
  rw [pulse_value]
  obtain hread | hread := answer_cases (nextAnswer (pinWrite true s).2)
  · rw [pinRead_ok hread]
    refine if_neg fun ⟨hhigh, hlow⟩ => ?_
    obtain hf | hf | hf := h
    · exact answer_ne_ok hf hhigh
    · exact answer_ne_ok hf hread
    · exact answer_ne_ok hf hlow
  · rw [pinRead_fault hread]
    exact ite_self none

/-- A trailing pulse either of whose primitives is refused returns `fault` (R59). -/
theorem pulse_noSample_refused {s : State} (h : nextAnswer s = .fault ∨ nextAnswer (takeAnswer s) = .fault) :
    (pulse noSample s).1 = none := by
  rw [pulse_value]
  refine if_neg fun ⟨hhigh, hlow⟩ => ?_
  obtain hf | hf := h
  · exact answer_ne_ok hf hhigh
  · exact answer_ne_ok hf hlow

theorem shiftStep_refused {s : State} (h : (pulse pinRead s).1 = none) :
    shiftStep s = busFaultDesync (pulse pinRead s).2 := by
  have e : pulse pinRead s = (none, (pulse pinRead s).2) := Prod.ext h rfl
  rw [shiftStep, e]

theorem trailStep_refused {s : State} (h : (pulse noSample s).1 = none) :
    trailStep s = busFaultDesync (pulse noSample s).2 := by
  have e : pulse noSample s = (none, (pulse noSample s).2) := Prod.ext h rfl
  rw [trailStep, e]

/-- The bus fault of a pulse, whatever the pulse left on the lines: CLK is low (R59, R100). -/
theorem busFaultDesync_lines {s u : State} (h : LinesOnly s u) (hc : u.clkOut = false) :
    busFaultDesync u = { s with
      phase := .idle, code := .busFault, valid := true, desync := true, latched := none
      clkOut := false, trace := u.trace, gpioIn := u.gpioIn, dataIn := u.dataIn, freeCount := u.freeCount } := by
  rw [h, hc]
  rfl

/-- Settles O31: in either phase a refused primitive makes the pulse return `fault`, and the step ends in the bus fault. -/
theorem pulseBusFault : Obligations.PulseBusFault := by
  rintro s turn (⟨hp, hf⟩ | ⟨hp, hf⟩)
  · obtain ⟨hl, hc⟩ := pulse_lines pinRead_lines { s with agenda := s.agenda.tail }
    refine ⟨_, step_shiftTurn turn hp, ?_⟩
    rw [shiftStep_refused (pulse_pinRead_refused (by exact hf))]
    exact busFaultDesync_lines hl hc
  · obtain ⟨hl, hc⟩ := pulse_lines noSample_lines { s with agenda := s.agenda.tail }
    refine ⟨_, step_trailTurn turn hp, ?_⟩
    rw [trailStep_refused (pulse_noSample_refused (by exact hf))]
    exact busFaultDesync_lines hl hc

/-! ### Where TIMEOUT comes from (R66, R97) -/

/-- The poll that times out is the one step of the Engine that completes with TIMEOUT. -/
theorem engineStep_timeout {s : State} (busy : s.phase ≠ .idle) (hi : (engineStep s).phase = .idle)
    (hc : (engineStep s).code = .timeout) :
    s.phase = .wait ∧ s.params.waitTimeout.val ≤ (pollStamp s - s.tCmd).toNat ∧
      engineStep s = complete .timeout (polled true (pollStamp s) s) := by
  cases hp : s.phase with
  | idle => exact absurd hp busy
  | wait =>
    rw [engineStep_wait hp] at hi hc ⊢
    obtain e | e | ⟨hk, e⟩ | ⟨-, e⟩ := waitStep_cases s
    · simp [e] at hc
    · simp [e] at hi
    · exact ⟨rfl, hk, e⟩
    · simp [e, polled, hp] at hi
  | shift =>
    rw [engineStep_shift hp] at hi hc
    obtain ⟨u, hl, -, e | ⟨d, ⟨-, e⟩ | ⟨-, e⟩⟩⟩ := shiftStep_cases s
    · simp [e] at hc
    · simp [e] at hi
    · simp [e, hl.phase, hp] at hi
  | trail =>
    rw [engineStep_trail hp] at hi hc
    obtain ⟨u, hl, -, e | ⟨-, e⟩ | ⟨-, e⟩⟩ := trailStep_cases s
    · simp [e] at hc
    · simp [e, hl.phase, hp] at hi
    · simp [e, finish_eq] at hc

/-- A command sets `code` in the step of its CMD write to another value than TIMEOUT, or not at all (R96, R97). -/
theorem CommandCase.code {s t : State} (h : CommandCase s t) : t.code = s.code ∨ t.code ≠ .timeout := by
  cases h with
  | done v h => subst h; exact .inr Code.noConfusion
  | failed c hc h => subst h; obtain rfl | rfl := hc <;> exact .inr Code.noConfusion
  | accepted n _ h =>
    obtain ⟨tr, u, rfl, e | e⟩ := accept_cases n s <;> rw [h, e]
    · exact .inl rfl
    · exact .inr Code.noConfusion

/-- Settles O38: of the steps that leave `code` at TIMEOUT only the poll sets it. -/
theorem timeoutOnlyFromWait : Obligations.TimeoutOnlyFromWait := by
  intro s t h hc hnew
  cases step_kind h with
  | engine turn h =>
    obtain ⟨-, busy, -⟩ := turn
    have keeps := engineStep_keeps (s := { s with agenda := s.agenda.tail }) busy
    rw [← h] at keeps
    have hi : t.phase = .idle := by
      obtain ⟨-, hi⟩ | hne := hnew
      · exact hi
      · by_contra hi
        obtain ⟨hcode, -⟩ := keeps.busyCode hi
        exact hne (hcode.symm.trans hc)
    rw [h] at hi hc
    obtain ⟨hp, hk, e⟩ := engineStep_timeout (by exact busy) hi hc
    rw [h, e]
    exact ⟨hp, rfl, hk, ⟨_, rfl⟩, rfl, rfl, rfl, rfl⟩
  | dispatched v idle ha h =>
    have hne : s.code ≠ .timeout := hnew.resolve_left fun ⟨busy, _⟩ => busy idle
    obtain hcode | hcode := (dispatch_cases h).code
    · exact absurd (hcode.symm.trans hc) hne
    · exact absurd hc hcode
  | untouched _ h _ =>
    have hcode : t.code = s.code := by rw [h]
    obtain ⟨busy, hi⟩ | hne := hnew
    · exact absurd (h.phase.symm.trans hi) busy
    · exact absurd (hcode.symm.trans hc) hne
  | reset k ha h =>
    rw [h, doReset_eq] at hc
    exact Code.noConfusion hc

end Sys2Proof.Machine
end

section
/-! The statement of `70_reset_and_hazards.md`: what a reset of either kind leaves (R112, R113). -/

namespace Sys2Proof.Machine

/-- A reset on the agenda is performed whatever the machine is doing (R112). -/
theorem step_reset {s : State} {k : ResetKind} {rest : List Move} (hp : s.params.pinsOk = true)
    (ha : s.agenda = .reset k :: rest) : step s = .next (doReset k { s with agenda := rest }) := by
  rw [step_pinsOk hp, ha]
  rfl

/-- An engine reset keeps DESYNC, and sets it where it cuts SHIFT or TRAIL short (R112). -/
theorem desyncAfterReset_er (s : State) :
    desyncAfterReset .er s = (s.desync || decide (s.phase = .shift ∨ s.phase = .trail)) := by
  rw [desyncAfterReset, Bool.or_assoc, Bool.decide_or]

/-- Settles O50: the step is `doReset`, and what is left to see is DESYNC, where the two kinds of reset differ. -/
theorem resetEffect : Obligations.ResetEffect := by
  intro s k rest hp ha
  refine ⟨_, step_reset hp ha, ?_⟩
  have h := doReset_eq k { s with agenda := rest }
  cases k with
  | por => exact h
  | er => rwa [desyncAfterReset_er] at h

end Sys2Proof.Machine
end
